-- ==== Sys2Proof/Word.lean ====
section
/-! DEFINITION. The numbers the D416 numbers its things with (R1, R46, R47, R150) and the two links. -/

namespace Sys2Proof

/-- A byte of a link frame or of a frame's data (R1, R116). -/
abbrev Byte := BitVec 8

/-- Frame number 0–4095 (R1). -/
abbrev FrameId := Fin 4096

/-- Word number 0–63 within a frame (R1). -/
abbrev WordId := Fin 64

/-- Bit number 0–71 within a stored word: 0–63 data, 64–71 check bits (R1). -/
abbrev BitId := Fin 72

/-- Page number 0–255 within a space (R46). -/
abbrev PageId := Fin 256

/-- The sixteen space records (R46). Space id `i` of the manual (1–16) is record `i - 1`. -/
abbrev SpaceId := Fin 16

/-- Slot number 0–3 of a link (R150). -/
abbrev SlotId := Fin 4

/-- The two links, each with its own host (0.1). -/
inductive LinkId where
  | link0
  | link1
  deriving DecidableEq, Repr, Inhabited

/-- The other link: the guest of a space this link owns (0.6.5). -/
def LinkId.other : LinkId → LinkId
  | .link0 => .link1
  | .link1 => .link0

end Sys2Proof
end

