-- ==== Sys2Proof/Syntax.lean ====
section
/-! DEFINITION. The commands of the D416: one constructor for each row of spec/opcode_table.json.

A message row carries the fields of its link frame (R116): the link it arrives on, its TAG and its payload bytes. Its KIND
is the row's. A CONFIG row carries the payload bytes after the item byte, which the row fixes (R145). -/

namespace Sys2Proof

/-- The level of a strap pair RATEn[1:0] and of RXDn, sampled together for one link (R115, R122). -/
structure LinkPins where
  rate : BitVec 2
  rxdLow : Bool
  deriving DecidableEq, Repr

/-- One command: an event that reaches the D416 from outside or happens in it (95_what_each_step_holds.md). -/
inductive Instr where
  | powerOn (pins0 pins1 : LinkPins)
  | resetN
  | resetNRelease (pins0 pins1 : LinkPins)
  | rxdReturnsHigh (link : LinkId)
  | lineBreak (link : LinkId)
  | interByteGapExpiry (link : LinkId)
  | linkFrameLenDiscard (link : LinkId) (len : Byte)
  | linkFrameCheckDiscard (link : LinkId) (lastByte : Byte)
  | generalPlacesFullDiscard (link : LinkId)
  | badKindMessage (link : LinkId) (kind tag : Byte) (payload : List Byte)
  | hello (link : LinkId) (tag : Byte) (payload : List Byte)
  | goodbye (link : LinkId) (tag : Byte) (payload : List Byte)
  | wake (link : LinkId) (tag : Byte) (payload : List Byte)
  | configNoticeMask (link : LinkId) (tag : Byte) (value : List Byte)
  | configDormancyInterval (link : LinkId) (tag : Byte) (value : List Byte)
  | configSlotTimeout (link : LinkId) (tag : Byte) (value : List Byte)
  | configScrubInterval (link : LinkId) (tag : Byte) (value : List Byte)
  | configRetireThreshold (link : LinkId) (tag : Byte) (value : List Byte)
  | configLowMark (link : LinkId) (tag : Byte) (value : List Byte)
  | configQuery (link : LinkId) (tag : Byte) (item : BitVec 7) (value : List Byte)
  | linkStatus (link : LinkId) (tag : Byte) (payload : List Byte)
  | partStatus (link : LinkId) (tag : Byte) (payload : List Byte)
  | spaceCreate (link : LinkId) (tag : Byte) (payload : List Byte)
  | spaceDestroy (link : LinkId) (tag : Byte) (payload : List Byte)
  | spaceGrant (link : LinkId) (tag : Byte) (payload : List Byte)
  | spaceInfo (link : LinkId) (tag : Byte) (payload : List Byte)
  | map (link : LinkId) (tag : Byte) (payload : List Byte)
  | unmap (link : LinkId) (tag : Byte) (payload : List Byte)
  | protect (link : LinkId) (tag : Byte) (payload : List Byte)
  | clone (link : LinkId) (tag : Byte) (payload : List Byte)
  | usage (link : LinkId) (tag : Byte) (payload : List Byte)
  | openSlot (link : LinkId) (tag : Byte) (payload : List Byte)
  | seg (link : LinkId) (tag : Byte) (payload : List Byte)
  | closeSlot (link : LinkId) (tag : Byte) (payload : List Byte)
  | slotInfo (link : LinkId) (tag : Byte) (payload : List Byte)
  | frameInfo (link : LinkId) (tag : Byte) (payload : List Byte)
  | retire (link : LinkId) (tag : Byte) (payload : List Byte)
  | check (link : LinkId) (tag : Byte) (payload : List Byte)
  | waitFree (link : LinkId) (tag : Byte) (payload : List Byte)
  | messageSent (link : LinkId) (rxdLow : Bool)
  | dormancyTimerExpiry (link : LinkId)
  | slotIdleTimerExpiry (link : LinkId) (slot : SlotId)
  | waitFreeTimerExpiry (link : LinkId) (tag : Byte)
  | walkTimerExpiry
  | clearCompletion
  | copyCompletion
  | checkCompletion
  | storageFault (frame : FrameId) (word : WordId) (bit : BitId)
  | byteReceived (link : LinkId) (byte : Byte)
  | stopBitLow (link : LinkId)
  deriving DecidableEq, Repr

end Sys2Proof
end

