-- ==== Sys2Proof/Decode.lean ====
section
/-! DEFINITION. spec/opcode_table.json gives no row any bits ("fixed" and "fields" are absent or empty for all fifty), so
no word spells a command (log 15). The messages' own bytes are read by the receiver (Machine/Receiver.lean) and intake
(Machine/Intake.lean). -/

namespace Sys2Proof

/-- The command a word spells by the table's bits: none, the table giving bits to no row. -/
def decodeTableWord (_nbits _w : Nat) : Option Instr := none

end Sys2Proof
end

