-- ==== Sys2Proof/Config.lean ====
section
/-! DEFINITION. The free values: what the manual leaves open. None has a body, so no proof can see one, and a claim
holds whatever they are. Each is applied to an index that `State.freeIndex` hands out. -/

namespace Sys2Proof.Config

/-- The data byte at an address of a frame that nothing has written since the reset with this index: undefined
(R11, R24; log 2). -/
opaque undefinedByte : (index address : Nat) → BitVec 8

/-- The bits by which the stored word with this number differs from a sound word, in a frame that nothing has written
since the reset with this index: undefined (R11, R24; log 2). -/
opaque undefinedDamage : (index word : Nat) → BitVec 72

/-- Whether Link 1's awaiting message is taken before Link 0's when both links have one to take: the manual says only
that the links are taken independently (R136; log 9). -/
opaque link1First : (index : Nat) → Bool

/-- Whether RXD is low, in the middle of a character, when a HELLO that awaited intake makes a link reset (R122;
log 10). -/
opaque rxdLowMidCharacter : (index : Nat) → Bool

end Sys2Proof.Config
end

