-- ==== Sys2Proof/Machine/State.lean ====
section
/-! DEFINITION. The state of the D416, as plain data, and its value right after power-on. Each structure follows a
table of the manual; a docstring names the table or rule. -/

namespace Sys2Proof.Machine

/-! ### Frame Store -/

/-- The Frame Store's words (R1–R3). A stored word is the data last written to it and the set of its 72 bits that
differ from what was written (log 1): `cells` lists data bytes by address `512 * frame + byte`, `damage` the
differing bits by word number `64 * frame + word`. An unlisted byte reads 0 and an unlisted word has no differing bit,
as a clear leaves them (R8), except in a frame whose data is undefined (R11, R24): there `undefinedSince` gives the
index of the free values it reads as (log 2). -/
structure Memory where
  cells : List Host.Cell
  damage : List (Nat × BitVec 72)
  undefinedSince : Vector (Option Nat) 4096
  deriving DecidableEq, Repr

/-- What a read finds wrong in a word: one bit, restored, or two or more (R3). -/
inductive ErrorKind where
  | corrected (bit : BitId)
  | uncorrectable
  deriving DecidableEq, Repr

/-- A CORRECTED or UNCORRECTABLE outcome handed to the Frame Table (R4). -/
structure ErrorEvent where
  frame : FrameId
  word : WordId
  kind : ErrorKind
  deriving DecidableEq, Repr

/-- Who found an error (Table 1-4). -/
inductive Finder where
  | scrub
  | check
  | read
  | merge
  | copy
  deriving DecidableEq, Repr

/-- The five clients of the store arbiter (R4). -/
inductive Client where
  | dataPath (link : LinkId)
  | copyEngine
  | clearer
  | scrubber
  deriving DecidableEq, Repr

/-- A granted whole-frame access that has not completed, with the errors it met at its grant (R4, R11; log 11). -/
inductive Access where
  | clear (frame : FrameId)
  | copy (source target : FrameId) (errors : List ErrorEvent)
  | check (frame : FrameId) (errors : List ErrorEvent)
  deriving DecidableEq, Repr

/-- The store arbiter (R10): idle or busy, who waits, and who was served last. -/
structure Arbiter where
  current : Option Access
  waiting : List Client
  lastServed : Client
  deriving DecidableEq, Repr

/-! ### Frame Table -/

/-- An entry of a back-reference list: a page of a space (R13). -/
abbrev BackRef := SpaceId × PageId

/-- The five frame states (R12). Only a HELD frame has a back-reference list (R13). -/
inductive FrameState where
  | clearing
  | free
  | held (refs : List BackRef)
  | target
  | retired
  deriving DecidableEq, Repr

/-- The last-error record (R18). -/
structure LastError where
  word : WordId
  kind : ErrorKind
  finder : Finder
  deriving DecidableEq, Repr

/-- The frame record (Table 1-2). The share count is the length of the back-reference list. -/
structure FrameRecord where
  state : FrameState
  tally : Nat
  poisoned : Bool
  retirePending : Bool
  moving : Bool
  lastError : Option LastError
  deriving DecidableEq, Repr

/-- A frame record after power-on (Table 1-5). -/
def FrameRecord.initial : FrameRecord :=
  { state := .clearing, tally := 0, poisoned := false, retirePending := false, moving := false, lastError := none }

/-! ### Supply Unit -/

/-- The supply state (R36). -/
inductive SupplyState where
  | normal
  | low
  deriving DecidableEq, Repr

/-- An entry of the waiter list (R41). Its timer runs exactly while it stands in the list (R42). -/
structure Waiter where
  link : LinkId
  tag : Byte
  count : Nat
  timeout : Nat
  deriving DecidableEq, Repr

/-! ### Map Unit -/

/-- A right over a space (R49). -/
inductive Right where
  | none
  | read
  | write
  deriving DecidableEq, Repr

/-- A present map entry (Table 3-2). -/
structure MapEntry where
  frame : FrameId
  writeProtect : Bool
  referenced : Bool
  modified : Bool
  copyPending : Bool
  deriving DecidableEq, Repr

/-- A LIVE space record (Table 3-1). Pages at or above `size` have no entry. The present count and the open-transfer
count are counted, not stored (R46, R48). -/
structure SpaceRecord where
  size : Nat
  owner : LinkId
  guest : Right
  pages : Vector (Option MapEntry) 256
  deriving DecidableEq, Repr

/-! ### Copy Engine -/

/-- A transfer slot of either link, as waiter sets name it (R77). -/
abbrev SlotRef := LinkId × SlotId

/-- The two kinds of copy job with what only one kind has (Table 4-1). -/
inductive JobKind where
  | privateCopy (entry : BackRef)
  | move (requester : Option (LinkId × Byte))
  deriving DecidableEq, Repr

/-- The phase of a copy job (Table 4-1). -/
inductive JobPhase where
  | queued
  | copying
  deriving DecidableEq, Repr

/-- A copy job (Table 4-1). -/
structure CopyJob where
  kind : JobKind
  source : FrameId
  target : FrameId
  waiters : List SlotRef
  phase : JobPhase
  deriving DecidableEq, Repr

/-! ### Scrubber -/

/-- The walk timer: stopped, running, or expired with a visit due (Table 5-1). -/
inductive WalkTimer where
  | stopped
  | running
  | due
  deriving DecidableEq, Repr

/-- For whom the check engine works: a walk visit, a CHECK request, or a CHECK request whose link was reset (R108). -/
inductive CheckWork where
  | walk
  | request (link : LinkId) (tag : Byte)
  | orphan
  deriving DecidableEq, Repr

/-- The check engine (R94). -/
inductive Engine where
  | idle
  | busy (frame : FrameId) (work : CheckWork)
  deriving DecidableEq, Repr

/-- A CHECK or RETIRE request waiting in the Scrubber (Table 5-1). -/
structure FrameRequest where
  link : LinkId
  tag : Byte
  frame : FrameId
  deriving DecidableEq, Repr

/-- The Scrubber's state (Table 5-1). -/
structure Scrubber where
  cursor : FrameId
  interval : Nat
  walkTimer : WalkTimer
  threshold : Nat
  passCount : BitVec 16
  retired : List FrameId
  discretionary : Nat
  engine : Engine
  checkQueue : List FrameRequest
  retireWait : List FrameRequest
  deriving DecidableEq, Repr

/-- The Scrubber after power-on (Table 5-6). -/
def Scrubber.initial : Scrubber :=
  { cursor := 0, interval := 10, walkTimer := .running, threshold := 4, passCount := 0, retired := [],
    discretionary := 0, engine := .idle, checkQueue := [], retireWait := [] }

/-! ### Link Controllers -/

/-- The condition of a timer. Its count is not modelled: its expiry is a command (log 5). -/
inductive Timer where
  | stopped
  | running
  | paused
  deriving DecidableEq, Repr

/-- A received message: KIND, TAG and payload (R118). -/
structure Message where
  kind : Byte
  tag : Byte
  payload : List Byte
  deriving DecidableEq, Repr

/-- The receiver states (Table 6-4). -/
inductive RxState where
  | hunt
  | header
  | payload
  | check
  | low
  deriving DecidableEq, Repr

/-- The receiver (6.3). `kept` holds the bytes of the link frame in progress after SYNC; `crc` is the CHECK register.
In LOW, `cut` says that the character that led there cut a link frame in progress. -/
structure Receiver where
  state : RxState
  kept : List Byte
  crc : BitVec 16
  gapTimer : Timer
  lowTimer : Timer
  cut : Bool
  deriving DecidableEq, Repr

/-- The receiver in HUNT with no link frame in progress (R126). -/
def Receiver.hunting : Receiver :=
  { state := .hunt, kept := [], crc := 0xFFFF, gapTimer := .stopped, lowTimer := .stopped, cut := false }

/-- The receiver in LOW with its line-low timer just started and no link frame in progress (R122). -/
def Receiver.lineLow : Receiver := { Receiver.hunting with state := .low, lowTimer := .running }

/-- The receiver after a reset, by the level of RXD (Table 6-6). -/
def Receiver.afterReset (rxdLow : Bool) : Receiver := if rxdLow then .lineLow else .hunting

/-- The kind of place a message holds in the transmit queue (Table 6-5); a notice holds none (R184). -/
inductive Place where
  | general
  | deferred
  | notice
  deriving DecidableEq, Repr

/-- A message the D416 sends or will send (R124). -/
structure Outgoing where
  kind : Byte
  tag : Byte
  payload : List Byte
  place : Place
  deriving DecidableEq, Repr

/-- The link states (R127). -/
inductive LinkState where
  | down
  | up
  | dormant
  deriving DecidableEq, Repr

/-- The kinds of deferred request (R139). -/
inductive DeferredKind where
  | waitFree
  | retire
  | check
  deriving DecidableEq, Repr

/-- An entry of the deferred-request table (Table 7-6): PENDING, or ANSWERED. -/
structure DeferredEntry where
  tag : Byte
  kind : DeferredKind
  answered : Bool
  deriving DecidableEq, Repr

/-- The direction of a transfer (Table 8-1). -/
inductive Direction where
  | read
  | write
  deriving DecidableEq, Repr

/-- The halt causes (Table 8-1). -/
inductive HaltCause where
  | notMapped
  | writeProtected
  | access
  | dataLost
  | noFrame
  | overrun
  | sequence
  | spaceGone
  deriving DecidableEq, Repr

/-- The open slot states (R150). -/
inductive Phase where
  | data
  | final
  | halted (cause : HaltCause)
  deriving DecidableEq, Repr

/-- The last accepted segment of an open slot (Table 8-1). `data` is empty for a WRITE slot. -/
structure LastSegment where
  toggle : Bool
  count : Nat
  position : Nat
  data : List Byte
  deriving DecidableEq, Repr

/-- An open slot's transfer (Table 8-1). -/
structure Transfer where
  phase : Phase
  direction : Direction
  space : SpaceId
  counted : Bool
  start : Nat
  length : Nat
  position : Nat
  toggle : Bool
  last : Option LastSegment
  timer : Timer
  deriving DecidableEq, Repr

/-- The final status of a transfer (Table 8-1, Table 8-4). -/
inductive FinalStatus where
  | short
  | done
  | expired
  | halted (cause : HaltCause)
  deriving DecidableEq, Repr

/-- The last outcome an IDLE slot keeps (R152). -/
structure LastOutcome where
  status : FinalStatus
  position : Nat
  deriving DecidableEq, Repr

/-- A transfer slot: IDLE, or open with its transfer (R150). The idle timer of an IDLE slot is stopped (R170). -/
inductive Slot where
  | idle (last : Option LastOutcome)
  | active (t : Transfer)
  deriving DecidableEq, Repr

/-- A SEG in processing whose access waits for the store (R136, R159): its tag, slot and toggle, and the bytes it
writes or the count it delivers, fixed before the access. -/
structure Segment where
  tag : Byte
  slot : SlotId
  toggle : Bool
  bytes : List Byte
  count : Nat
  deriving DecidableEq, Repr

/-- A pending notice: its class and payload (R178, Table 9-2). A set of slots has slot `s` at bit `s`, a set of space
ids has id `i` at bit `i - 1` (R190). -/
inductive Notice where
  | frameSupply (state : SupplyState) (free : Nat)
  | slotReady (slots : BitVec 4)
  | slotExpired (slots : BitVec 4)
  | spaceChanged (spaces : BitVec 16)
  | frameRetired (frame : FrameId) (total : Nat)
  | dataLost (frame : FrameId) (spaces : BitVec 16) (count : Nat)
  | scrubPass (count : BitVec 16)
  deriving DecidableEq, Repr

/-- One Link Controller: framing, session, settings, deferred requests, slots, notices and ATTN (Table 0-2).
`noticeMask` has class `c` at bit `c` (R190). -/
structure Link where
  rate : BitVec 2
  rx : Receiver
  discarded : Nat
  sending : Option Outgoing
  queue : List Outgoing
  state : LinkState
  noticeMask : BitVec 8
  dormancyInterval : Nat
  slotTimeout : Nat
  dormancyTimer : Timer
  deferred : List DeferredEntry
  awaiting : List Message
  segment : Option Segment
  slots : Vector Slot 4
  notices : List Notice
  attn : Bool
  deriving DecidableEq, Repr

/-- A Link Controller after a reset, with its sampled rate and the level of RXD (R126, R134, R177, R179, R188). -/
def Link.initial (rate : BitVec 2) (rxdLow : Bool) : Link :=
  { rate, rx := Receiver.afterReset rxdLow, discarded := 0, sending := none, queue := [], state := .down,
    noticeMask := 0, dormancyInterval := 0, slotTimeout := 50, dormancyTimer := .stopped, deferred := [],
    awaiting := [], segment := none, slots := Vector.replicate 4 (.idle none), notices := [], attn := false }

/-! ### The whole part -/

/-- The state of the D416. `freeIndex` is the model's own: the index of the next free value (log 2). `pending` is the
queue of commands that wait, first in first out (log 6). -/
structure State where
  resetLow : Bool
  memory : Memory
  arbiter : Arbiter
  frames : Vector FrameRecord 4096
  clearQueue : List FrameId
  freeQueue : List FrameId
  supply : SupplyState
  lowMark : Nat
  waiters : List Waiter
  spaces : Vector (Option SpaceRecord) 16
  jobs : List CopyJob
  scrub : Scrubber
  link0 : Link
  link1 : Link
  freeIndex : Nat
  pending : List Instr
  deriving DecidableEq, Repr

/-- The machine right after power-on (R24, R44, R69, R93, R114, R126, R127, R177): every frame CLEARING and in the
clear queue, the Clearer's first clear granted (R10, R26), both links DOWN. RESET_N and RXD are high and the straps
low (DESIGN CHOICE, log 3). -/
def State.reset : State :=
  { resetLow := false
    memory := { cells := [], damage := [], undefinedSince := (Vector.replicate 4096 (some 0)).set 0 none }
    arbiter := { current := some (.clear 0), waiting := [], lastServed := .clearer }
    frames := Vector.replicate 4096 FrameRecord.initial
    clearQueue := List.finRange 4096
    freeQueue := []
    supply := .normal
    lowMark := 64
    waiters := []
    spaces := Vector.replicate 16 none
    jobs := []
    scrub := Scrubber.initial
    link0 := Link.initial 0 false
    link1 := Link.initial 0 false
    freeIndex := 1
    pending := [] }

/-! ### How a step can stop -/

/-- Why the machine faults: never. The spec gives every command an effect, or none where its event cannot occur
(log 4), so nothing raises a fault. -/
inductive Fault where
  deriving DecidableEq, Repr

/-- Why a command is refused. -/
inductive Refusal where
  /-- The command's meaning has not been written; raised only by an arm of `exec`. Safe: nothing is claimed. -/
  | notModelled (mnemonic : String)
  deriving DecidableEq, Repr

end Sys2Proof.Machine
end

