-- ==== Sys2Proof/Machine/Operands.lean ====
section
/-! DEFINITION. The operand forms of the messages: byte order, field encodings, the kind and status codes of chapter 10,
and the CHECK of chapter 6. -/

namespace Sys2Proof.Machine

/-! ### Numbers in messages (R189, R190) -/

/-- A number as one byte. -/
def u8 (n : Nat) : Byte := BitVec.ofNat 8 n

/-- A two-byte field, most significant byte first (R189). -/
def be16 (n : Nat) : List Byte := [u8 (n / 256), u8 n]

/-- A three-byte field, most significant byte first (R189). -/
def be24 (n : Nat) : List Byte := [u8 (n / 65536), u8 (n / 256), u8 n]

/-- The value of a two-byte field (R189). -/
def nat16 (high low : Byte) : Nat := high.toNat * 256 + low.toNat

/-- The value of a three-byte field (R189). -/
def nat24 (high mid low : Byte) : Nat := high.toNat * 65536 + mid.toNat * 256 + low.toNat

/-- A flag: 1 for yes, 0 for no (R190). -/
def flag (b : Bool) : Byte := if b then 1 else 0

/-- A flag, toggle or protect setting received; a set unused bit names no value (R191). -/
def flag? (b : Byte) : Option Bool := if b = 0 then some false else if b = 1 then some true else none

/-- A frame number field in range (R23). -/
def frame? (n : Nat) : Option FrameId := if h : n < 4096 then some ⟨n, h⟩ else none

/-- A page number in range. -/
def page? (n : Nat) : Option PageId := if h : n < 256 then some ⟨n, h⟩ else none

/-- A slot number 0–3; bits 4–7 and the values 4–15 name no slot (R191, R153). -/
def slot? (b : Byte) : Option SlotId := if h : b.toNat < 4 then some ⟨b.toNat, h⟩ else none

/-- A space id 1–16 (R50). -/
def space? (b : Byte) : Option SpaceId :=
  if h : 1 ≤ b.toNat ∧ b.toNat ≤ 16 then some ⟨b.toNat - 1, by omega⟩ else none

/-- A space's id as messages carry it (R46). -/
def spaceByte (i : SpaceId) : Byte := u8 (i.val + 1)

/-- A direction code (Table 10-2). -/
def direction? (b : Byte) : Option Direction :=
  if b = 0 then some .read else if b = 1 then some .write else none

/-- A right code (Table 10-2). -/
def right? (b : Byte) : Option Right :=
  if b = 0 then some .none else if b = 1 then some .read else if b = 2 then some .write else none

/-- The set of one slot, slot `s` at bit `s` (R190). -/
def slotSet (k : SlotId) : BitVec 4 := BitVec.twoPow 4 k.val

/-- The set of one space, id `i` at bit `i - 1` (R190). -/
def spaceSet (i : SpaceId) : BitVec 16 := BitVec.twoPow 16 i.val

/-- A two-byte field from 16 bits, most significant byte first (R189). -/
def wordBytes (w : BitVec 16) : List Byte := be16 w.toNat

/-- The byte with bit `k` set where `mark k` is (R190). -/
def markByte (mark : Nat → Bool) : Byte :=
  (List.range 8).foldl (fun acc k => if mark k then acc ||| BitVec.twoPow 8 k else acc) 0

/-- A mark list: mark `i` is bit `i mod 8` of byte `i ÷ 8` (R190). -/
def markBytes (marks : List Bool) : List Byte :=
  (List.range ((marks.length + 7) / 8)).map fun j => markByte fun k => marks.getD (8 * j + k) false

/-! ### Value codes (Table 10-2) -/

/-- The code of a link state. -/
def LinkState.code : LinkState → Byte
  | .down => 0
  | .up => 1
  | .dormant => 2

/-- The code of a slot's state. -/
def Slot.code : Slot → Byte
  | .idle _ => 0
  | .active t => match t.phase with
    | .data => 1
    | .final => 2
    | .halted _ => 3

/-- The code of a direction. -/
def Direction.code : Direction → Byte
  | .read => 0
  | .write => 1

/-- The code of an owner. -/
def ownerCode : LinkId → Byte
  | .link0 => 0
  | .link1 => 1

/-- The code of a right. -/
def Right.code : Right → Byte
  | .none => 0
  | .read => 1
  | .write => 2

/-- The code of a supply state. -/
def SupplyState.code : SupplyState → Byte
  | .normal => 0
  | .low => 1

/-- The code of a frame state. -/
def FrameState.code : FrameState → Byte
  | .clearing => 0
  | .free => 1
  | .held _ => 2
  | .target => 3
  | .retired => 4

/-- The code of an error kind. -/
def ErrorKind.code : ErrorKind → Byte
  | .corrected _ => 1
  | .uncorrectable => 2

/-- The error bit as FRAME_INFO carries it: 0 for UNCORRECTABLE (Table 10-11). -/
def ErrorKind.bitByte : ErrorKind → Byte
  | .corrected bit => u8 bit.val
  | .uncorrectable => 0

/-- The code of a finder. -/
def Finder.code : Finder → Byte
  | .scrub => 1
  | .check => 2
  | .read => 3
  | .merge => 4
  | .copy => 5

/-- The code of a waiter job. -/
def JobKind.code : JobKind → Byte
  | .privateCopy _ => 1
  | .move _ => 2

/-- The code of the job a slot waits on, if it waits on one. -/
def waiterCode : Option JobKind → Byte
  | none => 0
  | some kind => kind.code

/-- The code of an idle timer's condition. -/
def Timer.code : Timer → Byte
  | .stopped => 0
  | .running => 1
  | .paused => 2

/-! ### Status codes (Table 10-14) -/

/-- The statuses that replies and REJECTs carry. -/
inductive Status where
  | ok
  | wait
  | badKind
  | badLength
  | badTag
  | tagInUse
  | busy
  | notUp
  | version
  | range
  | state
  | noSpace
  | noSuchSpace
  | access
  | exists
  | notMapped
  | shareLimit
  | noFrame
  | limit
  | timeout
  | dataLost
  | slotBusy
  | slotIdle
  | pastEnd
  | halted (cause : HaltCause)
  deriving DecidableEq, Repr

/-- The code of a halt cause (Table 10-14). -/
def HaltCause.code : HaltCause → Byte
  | .access => 0x22
  | .notMapped => 0x24
  | .writeProtected => 0x26
  | .noFrame => 0x30
  | .dataLost => 0x33
  | .overrun => 0x42
  | .sequence => 0x44
  | .spaceGone => 0x45

/-- The code of a status (Table 10-14). -/
def Status.code : Status → Byte
  | .ok => 0x00
  | .wait => 0x01
  | .badKind => 0x10
  | .badLength => 0x11
  | .badTag => 0x12
  | .tagInUse => 0x13
  | .busy => 0x14
  | .notUp => 0x15
  | .version => 0x16
  | .range => 0x17
  | .state => 0x18
  | .noSpace => 0x20
  | .noSuchSpace => 0x21
  | .access => 0x22
  | .exists => 0x23
  | .notMapped => 0x24
  | .shareLimit => 0x25
  | .noFrame => 0x30
  | .limit => 0x31
  | .timeout => 0x32
  | .dataLost => 0x33
  | .slotBusy => 0x40
  | .slotIdle => 0x41
  | .pastEnd => 0x43
  | .halted cause => cause.code

/-- The code of a final status (Table 10-14). -/
def FinalStatus.code : FinalStatus → Byte
  | .short => 0x02
  | .done => 0x03
  | .expired => 0x46
  | .halted cause => cause.code

/-! ### Request kinds (Table 10-1) -/

/-- The request kinds (Table 7-4). -/
inductive RequestKind where
  | hello | goodbye | wake | config | linkStatus | partStatus
  | spaceCreate | spaceDestroy | spaceGrant | spaceInfo | map | unmap | protect | clone | usage
  | openSlot | seg | closeSlot | slotInfo
  | frameInfo | retire | check | waitFree
  deriving DecidableEq, Repr

/-- The KIND code of a request kind (Table 10-1). -/
def RequestKind.code : RequestKind → Byte
  | .hello => 0x01
  | .goodbye => 0x02
  | .wake => 0x03
  | .config => 0x04
  | .linkStatus => 0x05
  | .partStatus => 0x06
  | .spaceCreate => 0x10
  | .spaceDestroy => 0x11
  | .spaceGrant => 0x12
  | .spaceInfo => 0x13
  | .map => 0x14
  | .unmap => 0x15
  | .protect => 0x16
  | .clone => 0x17
  | .usage => 0x18
  | .openSlot => 0x20
  | .seg => 0x21
  | .closeSlot => 0x22
  | .slotInfo => 0x23
  | .frameInfo => 0x30
  | .retire => 0x31
  | .check => 0x32
  | .waitFree => 0x33

/-- Every request kind, in the order of Table 10-1. -/
def requestKinds : List RequestKind :=
  [.hello, .goodbye, .wake, .config, .linkStatus, .partStatus,
   .spaceCreate, .spaceDestroy, .spaceGrant, .spaceInfo, .map, .unmap, .protect, .clone, .usage,
   .openSlot, .seg, .closeSlot, .slotInfo, .frameInfo, .retire, .check, .waitFree]

/-- The request kind a KIND byte names, if it names one (R189). -/
def requestKind? (b : Byte) : Option RequestKind := requestKinds.find? fun k => k.code = b

/-- Whether LEN suits the kind (Table 10-1; 3–66 for SEG). -/
def RequestKind.lengthOk (k : RequestKind) (len : Nat) : Bool :=
  match k with
  | .hello | .linkStatus | .spaceDestroy | .spaceInfo | .closeSlot | .slotInfo => len = 1
  | .goodbye | .wake | .partStatus => len = 0
  | .spaceCreate | .spaceGrant | .frameInfo | .retire | .check => len = 2
  | .config => len = 3
  | .waitFree => len = 4
  | .map | .unmap => len = 5
  | .protect | .usage => len = 6
  | .clone => len = 8
  | .openSlot => len = 9
  | .seg => 3 ≤ len ∧ len ≤ 66

/-- The kind of deferred request a request kind is, if it is deferred (Table 7-4). -/
def RequestKind.deferred? : RequestKind → Option DeferredKind
  | .waitFree => some .waitFree
  | .retire => some .retire
  | .check => some .check
  | _ => none

/-- The KIND code of a deferred request's kind. -/
def DeferredKind.code : DeferredKind → Byte
  | .waitFree => RequestKind.waitFree.code
  | .retire => RequestKind.retire.code
  | .check => RequestKind.check.code

/-- The KIND of the reply to a request (R189). -/
def replyKind (kind : Byte) : Byte := kind + 0x80

/-- The KIND of a REJECT (R189). -/
def rejectKind : Byte := 0x7E

/-- The KIND of a NOTICE (R189). -/
def noticeKind : Byte := 0x7F

/-! ### Notices (Table 10-13) -/

/-- The class code of a notice. -/
def Notice.classCode : Notice → Nat
  | .frameSupply .. => 1
  | .slotReady _ => 2
  | .slotExpired _ => 3
  | .spaceChanged _ => 4
  | .frameRetired .. => 5
  | .dataLost .. => 6
  | .scrubPass _ => 7

/-- The payload of a NOTICE: the class code, then the class's payload (R197). -/
def Notice.payload (n : Notice) : List Byte :=
  u8 n.classCode :: match n with
    | .frameSupply st free => st.code :: be16 free
    | .slotReady s => [s.setWidth 8]
    | .slotExpired s => [s.setWidth 8]
    | .spaceChanged s => wordBytes s
    | .frameRetired f total => be16 f.val ++ be16 total
    | .dataLost f s count => be16 f.val ++ wordBytes s ++ [u8 count]
    | .scrubPass count => wordBytes count

/-- The set of the classes of a list of notices, class `c` at bit `c` (R190). -/
def noticeClasses (ns : List Notice) : BitVec 8 :=
  ns.foldl (fun acc n => acc ||| BitVec.twoPow 8 n.classCode) 0

/-! ### CHECK (R117) and the wire form (R116) -/

/-- One bit into the CHECK register (R117). -/
def crcBit (r : BitVec 16) (bit : Bool) : BitVec 16 :=
  if (r.msb ^^ bit) then (r <<< 1) ^^^ 0x1021 else r <<< 1

/-- One byte into the CHECK register, most significant bit first (R117). -/
def crcByte (r : BitVec 16) (b : Byte) : BitVec 16 :=
  [7, 6, 5, 4, 3, 2, 1, 0].foldl (fun r i => crcBit r (b.getLsbD i)) r

/-- Several bytes into the CHECK register, in order. -/
def crcBytes (r : BitVec 16) (bs : List Byte) : BitVec 16 := bs.foldl crcByte r

/-- The SYNC byte (Table 6-3). -/
def syncByte : Byte := 0xC3

/-- The bytes of a link frame: SYNC, KIND, TAG, LEN, payload and CHECK, high byte first (R116). -/
def wireBytes (kind tag : Byte) (payload : List Byte) : List Byte :=
  let covered := kind :: tag :: u8 payload.length :: payload
  syncByte :: covered ++ wordBytes (crcBytes 0xFFFF covered)

/-- The bytes of a message the D416 sends (R116). -/
def Outgoing.wire (m : Outgoing) : List Byte := wireBytes m.kind m.tag m.payload

/-- The bytes of the link frame that carries a request (R116). -/
def Message.wire (m : Message) : List Byte := wireBytes m.kind m.tag m.payload

end Sys2Proof.Machine
end

