-- ==== Sys2Proof/Machine/Store.lean ====
section
/-! DEFINITION. The Frame Store's words: reading, writing, and the five accesses (R1–R9). -/

namespace Sys2Proof.Machine

/-! ### Sparse lists in canonical form -/

/-- The value a list of (key, value) pairs gives a key. -/
def sparseGet {α : Type} (l : List (Nat × α)) (k : Nat) : Option α :=
  match l with
  | [] => none
  | (k', v) :: rest => if k' = k then some v else sparseGet rest k

/-- The list with a key given a value, its keys kept rising. -/
def sparsePut {α : Type} (l : List (Nat × α)) (k : Nat) (v : α) : List (Nat × α) :=
  match l with
  | [] => [(k, v)]
  | (k', v') :: rest =>
    if k < k' then (k, v) :: (k', v') :: rest
    else if k = k' then (k, v) :: rest
    else (k', v') :: sparsePut rest k v

/-- The list with a key unlisted. -/
def sparseDrop {α : Type} (l : List (Nat × α)) (k : Nat) : List (Nat × α) := l.filter fun e => e.1 ≠ k

/-- Whether the keys rise strictly. -/
def sparseSorted {α : Type} (l : List (Nat × α)) : Bool := decide (l.Pairwise fun a b => a.1 < b.1)

/-! ### Words of the store (R1) -/

/-- The address of a byte of a frame (R1). -/
def byteAddress (f : FrameId) (offset : Nat) : Nat := 512 * f.val + offset

/-- The number of a word of a frame among all words (R1). -/
def wordNumber (f : FrameId) (w : WordId) : Nat := 64 * f.val + w.val

/-- Whether the frame's unlisted words are undefined (log 2). -/
def Memory.undefinedFrame (m : Memory) (f : FrameId) : Bool := (m.undefinedSince.get f).isSome

/-- The data byte last written at an offset of a frame (R1). -/
def Memory.readByte (m : Memory) (f : FrameId) (offset : Nat) : Byte :=
  (sparseGet m.cells (byteAddress f offset)).getD <|
    match m.undefinedSince.get f with
    | none => 0
    | some i => Config.undefinedByte i (byteAddress f offset)

/-- The bits of a word that differ from what was written (R1). -/
def Memory.damageOf (m : Memory) (f : FrameId) (w : WordId) : BitVec 72 :=
  (sparseGet m.damage (wordNumber f w)).getD <|
    match m.undefinedSince.get f with
    | none => 0
    | some i => Config.undefinedDamage i (wordNumber f w)

/-- A data byte written. A byte of 0 in a frame with no undefined data is unlisted. -/
def Memory.writeByte (m : Memory) (f : FrameId) (offset : Nat) (b : Byte) : Memory :=
  if m.undefinedFrame f = false ∧ b = 0 then { m with cells := sparseDrop m.cells (byteAddress f offset) }
  else { m with cells := sparsePut m.cells (byteAddress f offset) b }

/-- The differing bits of a word set. -/
def Memory.setDamage (m : Memory) (f : FrameId) (w : WordId) (d : BitVec 72) : Memory :=
  if m.undefinedFrame f = false ∧ d = 0 then { m with damage := sparseDrop m.damage (wordNumber f w) }
  else { m with damage := sparsePut m.damage (wordNumber f w) d }

/-- Fresh check bits: no bit of the word differs (R2). -/
def Memory.freshen (m : Memory) (f : FrameId) (w : WordId) : Memory := m.setDamage f w 0

/-- A stored bit changes (R1). A bit that changes twice no longer differs. -/
def Memory.strike (m : Memory) (f : FrameId) (w : WordId) (b : BitId) : Memory :=
  m.setDamage f w (m.damageOf f w ^^^ BitVec.twoPow 72 b.val)

/-- The canonical form: addresses rise strictly and lie in the store, and no entry of a frame with no undefined data
equals what an unlisted one reads as. -/
def Memory.wf (m : Memory) : Bool :=
  sparseSorted m.cells && sparseSorted m.damage &&
  m.cells.all (fun e => match frameOf e.1 512 with
    | none => false
    | some f => m.undefinedFrame f || e.2 != 0) &&
  m.damage.all (fun e => match frameOf e.1 64 with
    | none => false
    | some f => m.undefinedFrame f || e.2 != 0)
where
  /-- The frame that holds a key, with so many keys to a frame. -/
  frameOf (key perFrame : Nat) : Option FrameId :=
    if h : key / perFrame < 4096 then some ⟨key / perFrame, h⟩ else none

/-! ### Reading a word (R3) -/

/-- The bits of a set of differing bits. -/
def damagedBits (d : BitVec 72) : List BitId := (List.finRange 72).filter fun i => d.getLsbD i.val

/-- What the code finds in a word, nothing for CLEAN (R3). -/
def Memory.errorOf (m : Memory) (f : FrameId) (w : WordId) : Option ErrorKind :=
  match damagedBits (m.damageOf f w) with
  | [] => none
  | [bit] => some (.corrected bit)
  | _ => some .uncorrectable

/-- The errors met in reading words in order (R4). -/
def Memory.errorsIn (m : Memory) (words : List (FrameId × WordId)) : List ErrorEvent :=
  words.filterMap fun (f, w) => (m.errorOf f w).map fun k => { frame := f, word := w, kind := k }

/-- Whether any error is UNCORRECTABLE. -/
def anyUncorrectable (es : List ErrorEvent) : Bool := es.any fun e => e.kind = .uncorrectable

/-- The number of words found CORRECTED. -/
def correctedCount (es : List ErrorEvent) : Nat := es.countP fun e => e.kind ≠ .uncorrectable

/-- The write-backs of the CORRECTED words (R2, R3). -/
def Memory.writeBack (m : Memory) (es : List ErrorEvent) : Memory :=
  es.foldl (fun m e => if e.kind = .uncorrectable then m else m.freshen e.frame e.word) m

/-- The 64 words of a frame in ascending order. -/
def frameWords (f : FrameId) : List (FrameId × WordId) := (List.finRange 64).map fun w => (f, w)

/-! ### Segment accesses (R5, R6) -/

/-- The bytes a segment names in one frame (R5). -/
structure Part where
  frame : FrameId
  offset : Nat
  count : Nat
  deriving DecidableEq, Repr

/-- The words of a frame that hold at least one byte of a part, in ascending order (R5). -/
def Part.words (p : Part) : List (FrameId × WordId) :=
  ((List.finRange 64).filter fun w => 8 * w.val < p.offset + p.count ∧ p.offset < 8 * w.val + 8).map
    fun w => (p.frame, w)

/-- The words a part covers only in part (R6). -/
def Part.mergeWords (p : Part) : List (FrameId × WordId) :=
  p.words.filter fun (_, w) => ¬(p.offset ≤ 8 * w.val ∧ 8 * w.val + 8 ≤ p.offset + p.count)

/-- The bytes of a part as last written. -/
def Memory.readPart (m : Memory) (p : Part) : List Byte :=
  (List.range p.count).map fun i => m.readByte p.frame (p.offset + i)

/-- The bytes of a part written, in order. -/
def Memory.writePart (m : Memory) (p : Part) (bytes : List Byte) : Memory :=
  (List.range p.count).foldl (fun m i => m.writeByte p.frame (p.offset + i) (bytes.getD i 0)) m

/-- The bytes of a segment written to its parts, each part taking its bytes in turn. -/
def Memory.writeParts (m : Memory) (parts : List Part) (bytes : List Byte) : Memory :=
  match parts with
  | [] => m
  | p :: rest => (m.writePart p bytes).writeParts rest (bytes.drop p.count)

/-- A segment read (R5): the store with the write-backs, the errors met, and the bytes unless a word was
UNCORRECTABLE. -/
def Memory.segmentRead (m : Memory) (parts : List Part) : Memory × List ErrorEvent × Option (List Byte) :=
  let errors := m.errorsIn (parts.flatMap Part.words)
  (m.writeBack errors, errors,
    if anyUncorrectable errors then none else some (parts.flatMap m.readPart))

/-- A segment write (R6): the store after it, the errors its merge reads met, and whether it wrote. -/
def Memory.segmentWrite (m : Memory) (parts : List Part) (bytes : List Byte) : Memory × List ErrorEvent × Bool :=
  let errors := m.errorsIn (parts.flatMap Part.mergeWords)
  if anyUncorrectable errors then (m.writeBack errors, errors, false)
  else
    let written := m.writeParts parts bytes
    ((parts.flatMap Part.words).foldl (fun m (f, w) => m.freshen f w) written, errors, true)

/-! ### Whole-frame accesses (R7–R9) -/

/-- A frame clear (R8): 64 words of zero data with fresh check bits. -/
def Memory.clearFrame (m : Memory) (f : FrameId) : Memory :=
  { cells := m.cells.filter fun e => e.1 / 512 ≠ f.val
    damage := m.damage.filter fun e => e.1 / 64 ≠ f.val
    undefinedSince := m.undefinedSince.set f.val none f.isLt }

/-- The data of the target after it has been given the data of the source, with fresh check bits (R7). -/
def Memory.copyData (m : Memory) (source target : FrameId) : Memory :=
  (List.range 512).foldl (fun m' i => m'.writeByte target i (m.readByte source i)) (m.clearFrame target)

/-- A frame copy (R7): the store after it and the errors met in the source. -/
def Memory.frameCopy (m : Memory) (source target : FrameId) : Memory × List ErrorEvent :=
  let errors := m.errorsIn (frameWords source)
  let healed := m.writeBack errors
  (if anyUncorrectable errors then healed else healed.copyData source target, errors)

/-- A frame check (R9): the store with the write-backs, and the errors met. -/
def Memory.frameCheck (m : Memory) (f : FrameId) : Memory × List ErrorEvent :=
  let errors := m.errorsIn (frameWords f)
  (m.writeBack errors, errors)

/-- The store of a part whose frames, but for those kept, have undefined data (R11, R24). -/
def Memory.forget (m : Memory) (kept : Vector Bool 4096) (index : Nat) : Memory :=
  { cells := m.cells.filter fun e => keeps (e.1 / 512)
    damage := m.damage.filter fun e => keeps (e.1 / 64)
    undefinedSince := ⟨⟨List.zipWith (fun k old => if k then old else some index) kept.toList
      m.undefinedSince.toList⟩, by simp⟩ }
where
  /-- Whether the frame with this number is kept. -/
  keeps (n : Nat) : Bool := kept.toList.getD n false

end Sys2Proof.Machine
end

