-- ==== Sys2Proof/Machine/Flags.lean ====
section
/-! DEFINITION. The flags and conditions one record computes for itself: the frame record's flags (R14–R20), the supply
state (R36–R38), rights (R49), and the conditions of a link (R124, R131, R187). -/

namespace Sys2Proof.Machine

/-! ### The retire limit and the frame record -/

/-- The retire limit: 256 discretionary retirements (R104). -/
def retireLimit : Nat := 256

/-- The back-reference list; no list outside HELD (R13). -/
def FrameState.refs : FrameState → List BackRef
  | .held refs => refs
  | _ => []

/-- The share count, 0 outside HELD (R13). -/
def FrameRecord.shareCount (r : FrameRecord) : Nat := r.state.refs.length

/-- Whether the frame is HELD. -/
def FrameState.isHeld : FrameState → Bool
  | .held _ => true
  | _ => false

/-- The record after a CORRECTED outcome (R19). -/
def FrameRecord.afterCorrected (r : FrameRecord) (word : WordId) (bit : BitId) (finder : Finder)
    (threshold discretionary : Nat) : FrameRecord :=
  let tally := min (r.tally + 1) 15
  { r with
    tally := tally
    lastError := some { word, kind := .corrected bit, finder }
    retirePending := r.retirePending ||
      decide (threshold ≤ tally ∧ r.poisoned = false ∧ discretionary < retireLimit) }

/-- The record after an UNCORRECTABLE outcome (R20). -/
def FrameRecord.afterUncorrectable (r : FrameRecord) (word : WordId) (finder : Finder) : FrameRecord :=
  { r with
    lastError := some { word, kind := .uncorrectable, finder }
    poisoned := true
    retirePending := r.poisoned && r.retirePending }

/-- The record of a frame after RESET_N: a RETIRED frame keeps its tally, poisoned flag and last error (Table 1-5). -/
def FrameRecord.afterResetN (r : FrameRecord) : FrameRecord :=
  if r.state = .retired then { r with retirePending := false, moving := false } else .initial

/-- Whether a walk visit checks the frame: HELD and not moving, or FREE (R96). -/
def FrameRecord.visited (r : FrameRecord) : Bool :=
  match r.state with
  | .held _ => !r.moving
  | .free => true
  | _ => false

/-- Whether a CHECK may check the frame: HELD or FREE (R106, R107). -/
def FrameRecord.checkable (r : FrameRecord) : Bool :=
  match r.state with
  | .held _ => true
  | .free => true
  | _ => false

/-- The flag byte of FRAME_INFO and CHECK: bit 0 poisoned, bit 1 retire-pending, bit 2 moving (Table 10-11). -/
def FrameRecord.flagByte (r : FrameRecord) : Byte :=
  (if r.poisoned then 1 else 0) ||| (if r.retirePending then 2 else 0) ||| (if r.moving then 4 else 0)

/-! ### The supply state -/

/-- The supply state after the free count has fallen (R36). -/
def SupplyState.afterFall (st : SupplyState) (free mark : Nat) : SupplyState :=
  match st with
  | .normal => if free < mark then .low else .normal
  | .low => .low

/-- The supply state after the free count has risen (R37). -/
def SupplyState.afterRise (st : SupplyState) (free mark : Nat) : SupplyState :=
  match st with
  | .normal => .normal
  | .low => if mark + 32 ≤ free then .normal else .low

/-- The supply state after a CONFIG of the low mark (R38). -/
def SupplyState.afterMark (st : SupplyState) (free mark : Nat) : SupplyState :=
  match st with
  | .normal => if free < mark then .low else .normal
  | .low => if mark + 32 ≤ free then .normal else .low

/-! ### Rights -/

/-- What a request or a transfer needs of a space (Table 3-3). -/
inductive Need where
  | read
  | write
  | owner
  deriving DecidableEq, Repr

/-- Whether a link holds what is needed over a space (R49, Table 3-3). -/
def SpaceRecord.allows (r : SpaceRecord) (link : LinkId) (need : Need) : Bool :=
  if r.owner = link then true
  else match need, r.guest with
    | .read, .read => true
    | .read, .write => true
    | .write, .write => true
    | _, _ => false

/-- What a transfer's direction needs (R153, R160). -/
def Direction.need : Direction → Need
  | .read => .read
  | .write => .write

/-- Whether a range of pages is a range of the space (3.5). -/
def SpaceRecord.rangeOk (r : SpaceRecord) (first count : Nat) : Bool :=
  decide (1 ≤ count ∧ count ≤ 256 ∧ first + count ≤ r.size)

/-- The present count (R46). -/
def SpaceRecord.presentCount (r : SpaceRecord) : Nat := r.pages.toList.countP Option.isSome

/-! ### A slot's conditions -/

/-- The halt cause of a slot that is HALTED. -/
def Slot.cause? : Slot → Option HaltCause
  | .active t => match t.phase with
    | .halted c => some c
    | _ => none
  | .idle _ => none

/-- Whether the slot counts a space (R151). -/
def Slot.counts (k : Slot) (space : SpaceId) : Bool :=
  match k with
  | .active t => t.counted && t.space = space
  | .idle _ => false

/-- Whether the slot is in DATA (R150). -/
def Slot.inData : Slot → Bool
  | .active t => t.phase = .data
  | .idle _ => false

/-- The final status of a transfer closed in a phase (Table 8-4). -/
def Phase.finalStatus : Phase → FinalStatus
  | .data => .short
  | .final => .done
  | .halted c => .halted c

/-! ### A link's conditions -/

/-- The general places of the transmit queue occupied: by its messages, by the message being sent, and by each message
in processing or awaiting intake (R124). -/
def Link.generalOccupied (l : Link) : Nat :=
  (l.queue.countP fun m => m.place = .general) +
  (l.sending.toList.countP fun m => m.place = .general) +
  l.awaiting.length + l.segment.toList.length

/-- Whether a notice's class is masked (R183). -/
def Link.masks (l : Link) (n : Notice) : Bool := l.noticeMask.getLsbD n.classCode

/-- The oldest unmasked pending notice (R184). -/
def Link.nextNotice (l : Link) : Option Notice := l.notices.find? fun n => !l.masks n

/-- Whether ATTN is asserted (R187). -/
def Link.attention (l : Link) : Bool :=
  l.state = .dormant && (!l.queue.isEmpty || l.nextNotice.isSome)

/-- The dormancy timer runs while the link is UP, the interval is not 0 and the transmitter is idle (R131). -/
def Link.dormancyCondition (l : Link) : Timer :=
  if l.state = .up ∧ l.dormancyInterval ≠ 0 ∧ l.sending = none then .running else .stopped

/-- A slot idle timer started from zero: stopped if the timeout is 0, paused while the link is DORMANT (R170, R171). -/
def Link.startedTimer (l : Link) : Timer :=
  if l.slotTimeout = 0 then .stopped else if l.state = .dormant then .paused else .running

/-- The discarded-message count after one more discard (R123). -/
def Link.countDiscard (l : Link) : Link := { l with discarded := min (l.discarded + 1) 65535 }

end Sys2Proof.Machine
end

