-- ==== Sys2Proof/Machine/Ops.lean ====
section
/-! DEFINITION. The named operations over the part's state: the one read and the one write of each record, notices,
the transmit queue, access requests, the Frame Table's events, the supply, release and retirement, and the slots. -/

namespace Sys2Proof.Machine

/-! ### Records -/

/-- A link's controller. -/
def State.link (s : State) : LinkId → Link
  | .link0 => s.link0
  | .link1 => s.link1

/-- A link's controller replaced. -/
def State.setLink (s : State) (i : LinkId) (l : Link) : State :=
  match i with
  | .link0 => { s with link0 := l }
  | .link1 => { s with link1 := l }

/-- A link's controller changed. -/
def State.onLink (s : State) (i : LinkId) (change : Link → Link) : State := s.setLink i (change (s.link i))

/-- A frame's record (R12). -/
def State.frame (s : State) (f : FrameId) : FrameRecord := s.frames.get f

/-- A frame's record replaced: one Frame Table event (R12). -/
def State.setFrame (s : State) (f : FrameId) (r : FrameRecord) : State :=
  { s with frames := s.frames.set f.val r f.isLt }

/-- A space's record; none when ABSENT (R46). -/
def State.space (s : State) (i : SpaceId) : Option SpaceRecord := s.spaces.get i

/-- A space's record replaced. -/
def State.setSpace (s : State) (i : SpaceId) (r : Option SpaceRecord) : State :=
  { s with spaces := s.spaces.set i.val r i.isLt }

/-- A page's map entry; none when absent, and in an ABSENT space (R47). -/
def State.entry (s : State) (p : BackRef) : Option MapEntry := (s.space p.1).bind fun r => r.pages.get p.2

/-- A page's map entry replaced; nothing in an ABSENT space. -/
def State.setEntry (s : State) (p : BackRef) (e : Option MapEntry) : State :=
  match s.space p.1 with
  | none => s
  | some r => s.setSpace p.1 (some { r with pages := r.pages.set p.2.val e p.2.isLt })

/-- A slot of a link (R150). -/
def State.slot (s : State) (k : SlotRef) : Slot := (s.link k.1).slots.get k.2

/-- A slot of a link replaced. -/
def State.setSlot (s : State) (k : SlotRef) (slot : Slot) : State :=
  s.onLink k.1 fun l => { l with slots := l.slots.set k.2.val slot k.2.isLt }

/-- The free count (R29). -/
def State.freeCount (s : State) : Nat := s.freeQueue.length

/-- Every slot of both links. -/
def slotRefs : List SlotRef := [.link0, .link1].flatMap fun i => (List.finRange 4).map fun k => (i, k)

/-- The open-transfer count of a space (R48). -/
def State.openCount (s : State) (i : SpaceId) : Nat := slotRefs.countP fun k => (s.slot k).counts i

/-! ### Notices (chapter 9) -/

/-- A pending notice after a raise of its class (R181, Table 9-3); a raise of another class leaves it. -/
def Notice.merge (pending raised : Notice) : Notice :=
  match pending, raised with
  | .slotReady s, .slotReady t => .slotReady (s ||| t)
  | .slotExpired s, .slotExpired t => .slotExpired (s ||| t)
  | .spaceChanged s, .spaceChanged t => .spaceChanged (s ||| t)
  | .dataLost _ s c, .dataLost f t _ => .dataLost f (s ||| t) (min (c + 1) 255)
  | .frameSupply .., .frameSupply st n => .frameSupply st n
  | .frameRetired .., .frameRetired f n => .frameRetired f n
  | .scrubPass _, .scrubPass n => .scrubPass n
  | p, _ => p

/-- A notice set after a raise: merged into the pending notice of its class, which keeps its place, or appended
(R180). -/
def raiseInto (set : List Notice) (n : Notice) : List Notice :=
  if set.any (fun p => p.classCode = n.classCode) then
    set.map fun p => if p.classCode = n.classCode then p.merge n else p
  else set ++ [n]

/-- A notice raised on one link; a DOWN link ignores it (R180). -/
def State.raiseOn (s : State) (i : LinkId) (n : Notice) : State :=
  s.onLink i fun l => if l.state = .down then l else { l with notices := raiseInto l.notices n }

/-- A notice raised on both links (R178). -/
def State.raiseBoth (s : State) (n : Notice) : State := (s.raiseOn .link0 n).raiseOn .link1 n

/-! ### The transmit queue (R124) -/

/-- A message joins a link's transmit queue at its tail. -/
def State.enqueue (s : State) (i : LinkId) (m : Outgoing) : State :=
  s.onLink i fun l => { l with queue := l.queue ++ [m] }

/-- The reply to an immediate request, in a general place (R139). The payload begins with the status. -/
def State.reply (s : State) (i : LinkId) (kind : RequestKind) (tag : Byte) (payload : List Byte) : State :=
  s.enqueue i { kind := replyKind kind.code, tag, payload, place := .general }

/-- The REJECT of a message (R138): its KIND and the status; TAG 255 where the message's was 0. -/
def State.reject (s : State) (i : LinkId) (m : Message) (status : Status) : State :=
  s.enqueue i { kind := rejectKind, tag := if m.tag = 0 then 255 else m.tag,
                payload := [m.kind, status.code], place := .general }

/-- The reply to a deferred request: its table entry becomes ANSWERED and the reply takes a deferred place (R140). -/
def State.answer (s : State) (i : LinkId) (kind : DeferredKind) (tag : Byte) (payload : List Byte) : State :=
  (s.onLink i fun l =>
    { l with deferred := l.deferred.map fun e => if e.tag = tag then { e with answered := true } else e }).enqueue i
    { kind := replyKind kind.code, tag, payload, place := .deferred }

/-! ### Access requests (R10) -/

/-- A client's access presented: it waits until the arbiter grants it. The arbiter acts at the end of the event
(log 8). -/
def State.present (s : State) (c : Client) : State :=
  if c ∈ s.arbiter.waiting then s
  else { s with arbiter := { s.arbiter with waiting := s.arbiter.waiting ++ [c] } }

/-- A client's waiting access withdrawn (R11). -/
def State.withdraw (s : State) (c : Client) : State :=
  { s with arbiter := { s.arbiter with waiting := s.arbiter.waiting.filter fun d => d ≠ c } }

/-- Whether a clear is in progress. -/
def Arbiter.clearing (a : Arbiter) : Bool :=
  match a.current with
  | some (.clear _) => true
  | _ => false

/-- The Clearer presents a clear whenever the clear queue is not empty and it has none outstanding (R26). -/
def State.kickClearer (s : State) : State :=
  if s.clearQueue = [] ∨ s.arbiter.clearing then s else s.present .clearer

/-! ### The supply state (R36–R39) -/

/-- A new supply state; a change raises FRAME_SUPPLY on both links (R39). -/
def State.setSupply (s : State) (st : SupplyState) : State :=
  if st = s.supply then s
  else ({ s with supply := st }).raiseBoth (.frameSupply st s.freeCount)

/-- A fall of the free count examined (R36). -/
def State.examineFall (s : State) : State := s.setSupply (s.supply.afterFall s.freeCount s.lowMark)

/-- A rise of the free count examined (R37). -/
def State.examineRise (s : State) : State := s.setSupply (s.supply.afterRise s.freeCount s.lowMark)

/-! ### Frame Table events -/

/-- The set of space ids in a back-reference list (R20). -/
def spacesOf (refs : List BackRef) : BitVec 16 := refs.foldl (fun acc p => acc ||| spaceSet p.1) 0

/-- The common effect of a storage error (R19, R20). -/
def State.commonEffect (s : State) (finder : Finder) (e : ErrorEvent) : State :=
  let r := s.frame e.frame
  match e.kind with
  | .corrected bit =>
    s.setFrame e.frame (r.afterCorrected e.word bit finder s.scrub.threshold s.scrub.discretionary)
  | .uncorrectable =>
    let s' := s.setFrame e.frame (r.afterUncorrectable e.word finder)
    if r.poisoned then s' else s'.raiseBoth (.dataLost e.frame (spacesOf r.state.refs) 1)

/-- The common effects of the errors of one access, in the order it met them (R4). -/
def State.commonEffects (s : State) (finder : Finder) (es : List ErrorEvent) : State :=
  es.foldl (fun s e => s.commonEffect finder e) s

/-- A frame becomes RETIRED and joins the retired list; FRAME_RETIRED is raised on both links (R103, R104). -/
def State.retireFrame (s : State) (f : FrameId) (discretionary : Bool) : State :=
  let retired := s.scrub.retired ++ [f]
  (({ s with scrub := { s.scrub with
        retired := retired
        discretionary := if discretionary then s.scrub.discretionary + 1 else s.scrub.discretionary } }).setFrame f
    { s.frame f with state := .retired, retirePending := false }).raiseBoth (.frameRetired f retired.length)

/-- A frame released: to the clear queue, or to RETIRED if it is poisoned (R34, R35). -/
def State.release (s : State) (f : FrameId) : State :=
  if (s.frame f).poisoned then s.retireFrame f false
  else
    (({ s with clearQueue := s.clearQueue ++ [f] }).setFrame f { s.frame f with state := .clearing }).kickClearer

/-- A FREE frame removed from its place in the free queue and retired (R33). -/
def State.retireFree (s : State) (f : FrameId) (discretionary : Bool) : State :=
  (({ s with freeQueue := s.freeQueue.erase f }).examineFall).retireFrame f discretionary

/-- What a check, or the copy of a FREE source, leads to on a FREE frame (R99, R76). -/
def State.resolveFree (s : State) (f : FrameId) : State :=
  let r := s.frame f
  if r.poisoned then s.retireFree f false
  else if r.retirePending then
    if s.scrub.discretionary < retireLimit then s.retireFree f true
    else s.setFrame f { r with retirePending := false }
  else s

/-- A map entry removed from its frame: the entry is made absent and leaves the back-reference list. At share count
0 the frame is released, unless it is moving (R13, R21, R53). Also whether the count reached 0. -/
def State.detach (s : State) (p : BackRef) : State × Bool :=
  match s.entry p with
  | none => (s, false)
  | some e =>
    let r := s.frame e.frame
    let refs := r.state.refs.erase p
    let s' := (s.setEntry p none).setFrame e.frame { r with state := .held refs }
    if refs = [] then (if r.moving then s' else s'.release e.frame, true) else (s', false)

/-- Pages detached in order, with the number of detaches that brought a share count to 0 (R53, R59). -/
def State.detachAll (s : State) (ps : List BackRef) : State × Nat :=
  ps.foldl (fun (s, n) p => let (s', zero) := s.detach p; (s', if zero then n + 1 else n)) (s, 0)

/-- Whether a PRIVATE job naming a page is in the copy job queue (R58). -/
def State.privateJobFor (s : State) (p : BackRef) : Bool := s.jobs.any fun j => j.kind = .privateCopy p

/-! ### Waiter sets (R77) -/

/-- A slot leaves the waiter set it stands in. -/
def State.leaveWaiters (s : State) (k : SlotRef) : State :=
  { s with jobs := s.jobs.map fun j => { j with waiters := j.waiters.filter fun w => w ≠ k } }

/-- A slot joins the waiter set of the job that a test picks, leaving any other (R77, R79). -/
def State.joinWaiters (s : State) (k : SlotRef) (picks : CopyJob → Bool) : State :=
  { s with jobs := s.jobs.map fun j =>
      if picks j then { j with waiters := if k ∈ j.waiters then j.waiters else j.waiters ++ [k] }
      else { j with waiters := j.waiters.filter fun w => w ≠ k } }

/-- SLOT_READY raised on each link for the waiters it has, if any (R90). -/
def State.slotReady (s : State) (waiters : List SlotRef) : State :=
  [LinkId.link0, LinkId.link1].foldl
    (fun s i =>
      match waiters.filter fun w => w.1 = i with
      | [] => s
      | ws => s.raiseOn i (.slotReady (ws.foldl (fun acc w => acc ||| slotSet w.2) 0)))
    s

/-! ### Slots (chapter 8) -/

/-- An open slot HALTED with a cause, keeping the rest of its record (R162). -/
def Transfer.halt (t : Transfer) (cause : HaltCause) : Transfer := { t with phase := .halted cause }

/-- A slot returns to IDLE with a last outcome: it leaves its waiter set, and stops counting its space (R152). -/
def State.idleSlot (s : State) (k : SlotRef) (last : Option LastOutcome) : State :=
  (s.leaveWaiters k).setSlot k (.idle last)

/-- The payload of a SEG reply (Table 10-9): status, slot, expected toggle, position, and the data of a read. -/
def segPayload (status : Status) (slot : Byte) (toggle : Bool) (position : Nat) (data : List Byte) : List Byte :=
  [status.code, slot, flag toggle] ++ be24 position ++ data

/-- The reply to a SEG taken for an open slot, which starts the slot's idle timer from zero (R170). -/
def State.segReply (s : State) (k : SlotRef) (tag : Byte) (status : Status) (data : List Byte) : State :=
  match s.slot k with
  | .idle _ => s
  | .active t =>
    (s.setSlot k (.active { t with timer := (s.link k.1).startedTimer })).reply k.1 .seg tag
      (segPayload status (u8 k.2.val) t.toggle t.position data)

/-- A slot halts in the event that finds the cause, and the SEG in processing is answered with it (R162). -/
def State.haltReply (s : State) (k : SlotRef) (tag : Byte) (cause : HaltCause) : State :=
  match s.slot k with
  | .idle _ => s
  | .active t => (s.setSlot k (.active (t.halt cause))).segReply k tag (.halted cause) []

/-- The SEG of a slot that has been halted while its access waited: the access is withdrawn without a grant and the
SEG answered with the slot's halt cause (R159). -/
def State.withdrawSegment (s : State) (k : SlotRef) (cause : HaltCause) : State :=
  match (s.link k.1).segment with
  | none => s
  | some g =>
    if g.slot = k.2 then
      ((s.withdraw (.dataPath k.1)).onLink k.1 fun l => { l with segment := none }).segReply k g.tag (.halted cause) []
    else s

/-- An open slot halted by another block's event: it goes HALTED with the cause, keeping all else (R162), and its
waiting access is withdrawn (R159). -/
def State.haltSlot (s : State) (k : SlotRef) (cause : HaltCause) : State :=
  match s.slot k with
  | .idle _ => s
  | .active t => (s.setSlot k (.active (t.halt cause))).withdrawSegment k cause

end Sys2Proof.Machine
end

