-- ==== Sys2Proof/Machine/Copy.lean ====
section
/-! DEFINITION. The Copy Engine (chapter 4): making jobs, and resolving a job at its copy's completion. -/

namespace Sys2Proof.Machine

/-- The copy job queue's bound (R75). -/
def jobLimit : Nat := 8

/-- A copy job made on the head of the free queue, the queue having room: the head frame becomes TARGET, the job joins
the tail, COPYING if the queue was empty, and the fall of the free count is examined (R32, R76, R78, R85). Nothing if
the free queue is empty. -/
def State.makeJob (s : State) (kind : JobKind) (source : FrameId) (waiters : List SlotRef) : State :=
  match s.freeQueue with
  | [] => s
  | target :: rest =>
    let job : CopyJob := { kind, source, target, waiters, phase := if s.jobs = [] then .copying else .queued }
    let s' := ({ s with freeQueue := rest, jobs := s.jobs ++ [job] }).setFrame target
      { s.frame target with state := .target }
    (if s.jobs = [] then s'.present .copyEngine else s').examineFall

/-- Why a MOVE job is refused (R85). -/
inductive MoveRefusal where
  | state
  | busy
  | noFrame
  deriving DecidableEq, Repr

/-- The first refusal of a request for a MOVE job, if any (R85). -/
def State.moveRefusal? (s : State) (f : FrameId) : Option MoveRefusal :=
  let r := s.frame f
  if r.state.isHeld = false ∨ r.poisoned ∨ r.moving then some .state
  else if jobLimit ≤ s.jobs.length then some .busy
  else if s.freeQueue = [] then some .noFrame
  else none

/-- A MOVE job made for a frame, which becomes moving (R85). -/
def State.makeMove (s : State) (f : FrameId) (requester : Option (LinkId × Byte)) : State :=
  (s.setFrame f { s.frame f with moving := true }).makeJob (.move requester) f []

/-- A PRIVATE job made for a page, whose entry becomes copy-pending (R78). -/
def State.makePrivate (s : State) (p : BackRef) (e : MapEntry) (waiter : SlotRef) : State :=
  (s.setEntry p (some { e with copyPending := true })).makeJob (.privateCopy p) e.frame [waiter]

/-! ### Completion -/

/-- The copy-pending flag of a page cleared, if the page is present (R80). -/
def State.clearCopyPending (s : State) (p : BackRef) : State :=
  match s.entry p with
  | none => s
  | some e => s.setEntry p (some { e with copyPending := false })

/-- A page's entry made to name another frame, keeping its flags (R47). -/
def State.retarget (s : State) (f : FrameId) (p : BackRef) : State :=
  match s.entry p with
  | none => s
  | some e => s.setEntry p (some { e with frame := f })

/-- The waiters of a failed PRIVATE job: those in DATA halt with DATA_LOST, their waiting accesses withdrawn, and the
others are named in SLOT_READY (R81). -/
def State.failWaiters (s : State) (waiters : List SlotRef) : State :=
  ((waiters.filter fun k => (s.slot k).inData).foldl (fun x k => x.haltSlot k .dataLost) s).slotReady
    (waiters.filter fun k => !(s.slot k).inData)

/-- A PRIVATE job resolved, its target sound: the first case of Table 4-2 that holds (R80–R83). -/
def State.resolvePrivate (s : State) (j : CopyJob) (p : BackRef) (uncorrectable : Bool) : State :=
  let namesSource := match s.entry p with
    | some e => e.frame = j.source
    | none => false
  let shared := (s.frame j.source).state.refs
  if uncorrectable then
    let s' := (s.release j.target).clearCopyPending p
    if namesSource then s'.failWaiters j.waiters else s'.slotReady j.waiters
  else if namesSource = false ∨ shared.length ≤ 1 then
    ((s.release j.target).clearCopyPending p).slotReady j.waiters
  else
    let detached := s.setFrame j.source { s.frame j.source with state := .held (shared.erase p) }
    let attached := detached.setFrame j.target { detached.frame j.target with state := .held [p] }
    ((attached.retarget j.target p).clearCopyPending p).slotReady j.waiters

/-- The reply to a RETIRE (Table 10-12): the frame, its state and the length of the retired list, as they stand (R112). -/
def State.answerRetire (s : State) (i : LinkId) (tag : Byte) (status : Status) (f : FrameId) : State :=
  s.answer i .retire tag
    (status.code :: be16 f.val ++ [(s.frame f).state.code] ++ be16 s.scrub.retired.length)

/-- The requester of a MOVE job answered, if there is one (R91). -/
def State.answerRequester (s : State) (requester : Option (LinkId × Byte)) (status : Status) (f : FrameId) : State :=
  match requester with
  | none => s
  | some (i, tag) => s.answerRetire i tag status f

/-- The moving flag of a frame cleared (R17). -/
def State.clearMoving (s : State) (f : FrameId) : State := s.setFrame f { s.frame f with moving := false }

/-- A release that was deferred because the frame was moving takes place (R21). -/
def State.deferredRelease (s : State) (f : FrameId) : State :=
  if (s.frame f).state = .held [] then s.release f else s

/-- The entries of a MOVE job's source carried to its target, which becomes HELD with the source's list; with an empty
list the target is released instead (R87, R88). The source's list is emptied. -/
def State.carry (s : State) (j : CopyJob) : State :=
  let refs := (s.frame j.source).state.refs
  let s' := if refs = [] then s.release j.target
    else (refs.foldl (fun s p => s.retarget j.target p) s).setFrame j.target
      { s.frame j.target with state := .held refs }
  s'.setFrame j.source { s'.frame j.source with state := .held [] }

/-- A MOVE job resolved, its target sound (R87–R89, Table 4-4). -/
def State.resolveMove (s : State) (j : CopyJob) (requester : Option (LinkId × Byte)) (uncorrectable : Bool) : State :=
  if uncorrectable then
    ((((s.clearMoving j.source).release j.target).slotReady j.waiters).answerRequester requester .dataLost
      j.source).deferredRelease j.source
  else if s.scrub.discretionary < retireLimit then
    ((((s.carry j).clearMoving j.source).retireFrame j.source true).slotReady j.waiters).answerRequester requester .ok
      j.source
  else
    let carried := s.carry j
    let cleared := carried.setFrame j.source
      { carried.frame j.source with moving := false, retirePending := false }
    ((cleared.release j.source).slotReady j.waiters).answerRequester requester .limit j.source

/-- A job whose target is poisoned has no usable target, whatever its copy's result (R76). -/
def State.resolvePoisonedTarget (s : State) (j : CopyJob) : State :=
  let s' := s.release j.target
  match j.kind with
  | .privateCopy p => (s'.clearCopyPending p).slotReady j.waiters
  | .move requester =>
    (((s'.clearMoving j.source).slotReady j.waiters).answerRequester requester .busy j.source).deferredRelease
      j.source

/-- A copy job resolved against the records as they stand (R76). A FREE source of a PRIVATE job is dealt with first. -/
def State.resolveJob (s : State) (j : CopyJob) (uncorrectable : Bool) : State :=
  let s' := match j.kind with
    | .privateCopy _ => if (s.frame j.source).state = FrameState.free then s.resolveFree j.source else s
    | .move _ => s
  if (s'.frame j.target).poisoned then s'.resolvePoisonedTarget j
  else match j.kind with
    | .privateCopy p => s'.resolvePrivate j p uncorrectable
    | .move requester => s'.resolveMove j requester uncorrectable

/-- The next job becomes the head: COPYING, its copy presented (R76). -/
def State.startNextJob (s : State) : State :=
  match s.jobs with
  | [] => s
  | j :: rest => ({ s with jobs := { j with phase := .copying } :: rest }).present .copyEngine

/-- The completion of the head job's frame copy (R76): the Frame Table's effects, the job's removal and resolution, and
the next job's start. -/
def State.completeCopy (s : State) (errors : List ErrorEvent) : State :=
  match s.jobs with
  | [] => s
  | j :: rest =>
    ((({ s with jobs := rest }).commonEffects .copy errors).resolveJob j (anyUncorrectable errors)).startNextJob

end Sys2Proof.Machine
end

