-- ==== Sys2Proof/Machine/Scrub.lean ====
section
/-! DEFINITION. The Scrubber (chapter 5): the walk, the check engine, CHECK and RETIRE. -/

namespace Sys2Proof.Machine

/-! ### The walk timer (R95) -/

/-- The walk timer at the end of a visit: from zero, or stopped if the interval is 0 (R95). -/
def Scrubber.restartedTimer (c : Scrubber) : WalkTimer := if c.interval = 0 then .stopped else .running

/-- Whether a walk check is in progress. -/
def Scrubber.walkInProgress (c : Scrubber) : Bool :=
  match c.engine with
  | .busy _ .walk => true
  | _ => false

/-- The Scrubber after a CONFIG of the scrub interval (R95). -/
def Scrubber.setInterval (c : Scrubber) (interval : Nat) : Scrubber :=
  { c with
    interval := interval
    walkTimer :=
      if interval = 0 then .stopped
      else if c.walkTimer = .due then .due
      else if c.walkInProgress then .stopped
      else .running }

/-! ### Replies to CHECK -/

/-- A CHECK answered STATE: the frame and its state, the other fields 0 (R196). -/
def State.answerCheckState (s : State) (q : FrameRequest) : State :=
  s.answer q.link .check q.tag
    (Status.state.code :: be16 q.frame.val ++ [0, 0, 0, (s.frame q.frame).state.code, 0])

/-- A CHECK answered OK at its check's completion, after the consequence (R107, Table 10-12). -/
def State.answerCheckOk (s : State) (i : LinkId) (tag : Byte) (f : FrameId) (errors : List ErrorEvent) : State :=
  let r := s.frame f
  s.answer i .check tag
    (Status.ok.code :: be16 f.val ++
      [u8 (correctedCount errors), flag (anyUncorrectable errors), u8 r.tally, r.state.code, r.flagByte])

/-! ### The check engine (R94) -/

/-- The engine set to work on a frame, its check presented (R94). -/
def State.startCheck (s : State) (f : FrameId) (work : CheckWork) : State :=
  ({ s with scrub := { s.scrub with engine := .busy f work } }).present .scrubber

/-- The cursor advanced in a visit's event; at the wrap the pass count rises and SCRUB_PASS is raised on both links
(R96, R97). -/
def State.advanceCursor (s : State) : State :=
  if s.scrub.cursor = Fin.last 4095 then
    ({ s with scrub := { s.scrub with cursor := 0, passCount := s.scrub.passCount + 1 } }).raiseBoth
      (.scrubPass (s.scrub.passCount + 1))
  else { s with scrub := { s.scrub with cursor := s.scrub.cursor + 1 } }

/-- A walk visit of the frame at the cursor: a check, or a skip (R96). The visit is no longer due; a skip ends it. -/
def State.walkVisit (s : State) : State :=
  let f := s.scrub.cursor
  if (s.frame f).visited then
    (({ s with scrub := { s.scrub with walkTimer := .stopped } }).startCheck f .walk).advanceCursor
  else
    ({ s with scrub := { s.scrub with walkTimer := s.scrub.restartedTimer } }).advanceCursor

/-- The Scrubber's next work, if the engine is idle (R94): the head CHECK entry, one whose frame has left HELD and FREE
being answered STATE (R107), else a due visit. `fuel` bounds the entries answered. -/
def State.nextWork (s : State) (fuel : Nat) : State :=
  match fuel with
  | 0 => s
  | fuel + 1 =>
    if s.scrub.engine ≠ .idle then s
    else match s.scrub.checkQueue with
      | q :: rest =>
        if (s.frame q.frame).checkable then s.startCheck q.frame (.request q.link q.tag)
        else
          State.nextWork
            (State.answerCheckState { s with scrub := { s.scrub with checkQueue := rest } } q) fuel
      | [] => if s.scrub.walkTimer = .due then s.walkVisit else s

/-- The Scrubber takes its next work (R94). -/
def State.takeWork (s : State) : State := s.nextWork (s.scrub.checkQueue.length + 1)

/-! ### Completion of a check -/

/-- The Scrubber's consequence, by the frame's record at completion (Table 5-2, R98–R101). -/
def State.consequence (s : State) (f : FrameId) : State :=
  let r := s.frame f
  match r.state with
  | .free => s.resolveFree f
  | .held _ =>
    if r.poisoned ∨ r.retirePending = false ∨ r.moving then s
    else if s.scrub.discretionary < retireLimit then
      if s.moveRefusal? f = none then s.makeMove f none else s
    else s.setFrame f { r with retirePending := false }
  | .retired => s.setFrame f { r with retirePending := false }
  | .clearing => s
  | .target => s

/-- The finder of a check, by the work it serves (R9). -/
def CheckWork.finder : CheckWork → Finder
  | .walk => .scrub
  | _ => .check

/-- The end of the engine's work: a walk visit ends, or a CHECK entry leaves the queue and is answered (R95, R107). -/
def State.endWork (s : State) (f : FrameId) (work : CheckWork) (errors : List ErrorEvent) : State :=
  match work with
  | .walk => { s with scrub := { s.scrub with walkTimer := s.scrub.restartedTimer } }
  | .request i tag =>
    ({ s with scrub := { s.scrub with checkQueue := s.scrub.checkQueue.erase (FrameRequest.mk i tag f) } }).answerCheckOk i tag f errors
  | .orphan => s

/-- The completion of a frame check (R98): the Frame Table's effects, the consequence, the end of the work, and the
next work. -/
def State.completeCheck (s : State) (errors : List ErrorEvent) : State :=
  match s.scrub.engine with
  | .idle => s
  | .busy f work =>
    (State.endWork (({ s with scrub := { s.scrub with engine := .idle } }).commonEffects work.finder errors
      |>.consequence f) f work errors).takeWork

/-! ### CHECK and RETIRE requests -/

/-- CHECK taken (R106). -/
def serveCheck (i : LinkId) (tag : Byte) (number : Nat) (s : State) : State :=
  match frame? number with
  | none => s.answer i .check tag (Status.range.code :: be16 number ++ [0, 0, 0, 0, 0])
  | some f =>
    if (s.frame f).checkable then
      ({ s with scrub := { s.scrub with checkQueue := s.scrub.checkQueue ++ [FrameRequest.mk i tag f] } }).takeWork
    else s.answerCheckState ⟨i, tag, f⟩

/-- The status a refused MOVE job answers a RETIRE with (R111). -/
def MoveRefusal.status : MoveRefusal → Status
  | .state => .state
  | .busy => .busy
  | .noFrame => .noFrame

/-- RETIRE taken (R109, Table 5-5). -/
def serveRetire (i : LinkId) (tag : Byte) (number : Nat) (s : State) : State :=
  match frame? number with
  | none => s.answer i .retire tag (Status.range.code :: be16 number ++ [0, 0, 0])
  | some f =>
    let r := s.frame f
    if r.state = .retired then s.answerRetire i tag .ok f
    else if retireLimit ≤ s.scrub.discretionary then s.answerRetire i tag .limit f
    else match r.state with
      | .free => (s.retireFree f true).answerRetire i tag .ok f
      | .clearing =>
        ({ s with scrub := { s.scrub with retireWait := s.scrub.retireWait ++ [FrameRequest.mk i tag f] } }).setFrame f
          { r with retirePending := r.retirePending || !r.poisoned }
      | .held _ =>
        match s.moveRefusal? f with
        | none => s.makeMove f (some (i, tag))
        | some refusal => s.answerRetire i tag refusal.status f
      | .target => s.answerRetire i tag .state f
      | .retired => s.answerRetire i tag .ok f

end Sys2Proof.Machine
end

