-- ==== Sys2Proof/Machine/Supply.lean ====
section
/-! DEFINITION. The Supply Unit (chapter 2): the completion of a clear, and WAIT_FREE. -/

namespace Sys2Proof.Machine

/-- A WAIT_FREE answered with the free count at the event (R40, Table 10-12). -/
def State.answerWaitFree (s : State) (i : LinkId) (tag : Byte) (status : Status) : State :=
  s.answer i .waitFree tag (status.code :: be16 s.freeCount)

/-- The waiter list examined at a rise of the free count: each entry now met is answered OK, in list order, and
removed (R41). -/
def State.examineWaiters (s : State) : State :=
  let met := s.waiters.filter fun w => w.count ≤ s.freeCount
  met.foldl (fun s w => s.answerWaitFree w.link w.tag .ok)
    { s with waiters := s.waiters.filter fun w => ¬ w.count ≤ s.freeCount }

/-- A cleared frame joins the tail of the free queue, and the rise is examined against the supply state (R27). -/
def State.makeFree (s : State) (f : FrameId) : State :=
  (({ s with freeQueue := s.freeQueue ++ [f] }).setFrame f
    { s.frame f with state := .free, retirePending := false }).examineRise

/-- The cleared frame resolved by its record, the first case of Table 2-2 (R27). -/
def State.resolveCleared (s : State) (f : FrameId) : State :=
  let r := s.frame f
  if r.poisoned then s.retireFrame f false
  else if r.retirePending ∧ s.scrub.discretionary < retireLimit then s.retireFrame f true
  else s.makeFree f

/-- The RETIRE requests waiting for a frame answered, in list order: OK if it became RETIRED, LIMIT if FREE (R110). -/
def State.answerRetireWait (s : State) (f : FrameId) : State :=
  let status := if (s.frame f).state = FrameState.retired then Status.ok else Status.limit
  (s.scrub.retireWait.filter fun q => q.frame = f).foldl
    (fun s q => s.answerRetire q.link q.tag status f)
    { s with scrub := { s.scrub with retireWait := s.scrub.retireWait.filter fun q => q.frame ≠ f } }

/-- The completion of a frame's clear (R27, R28, R41, R198): it leaves the clear queue and is resolved, the RETIRE
requests waiting for it are answered, then the waiters that a rise satisfies; the Clearer turns to the next frame. -/
def State.completeClear (s : State) (f : FrameId) : State :=
  let resolved := (State.resolveCleared { s with clearQueue := s.clearQueue.erase f } f).answerRetireWait f
  let examined := if (resolved.frame f).state = FrameState.free then resolved.examineWaiters else resolved
  examined.kickClearer

/-- WAIT_FREE taken (R40). -/
def serveWaitFree (i : LinkId) (tag : Byte) (count timeout : Nat) (s : State) : State :=
  if count = 0 ∨ 4096 < count ∨ timeout = 0 ∨ 60000 < timeout then s.answerWaitFree i tag .range
  else if 4096 - s.scrub.retired.length < count then s.answerWaitFree i tag .range
  else if count ≤ s.freeCount then s.answerWaitFree i tag .ok
  else { s with waiters := s.waiters ++ [{ link := i, tag, count, timeout }] }

/-- The expiry of a waiter's timer (R42): it is removed and answered TIMEOUT. -/
def State.expireWaiter (s : State) (i : LinkId) (tag : Byte) : State :=
  if s.waiters.any fun w => w.link = i ∧ w.tag = tag then
    ({ s with waiters := s.waiters.filter fun w => ¬(w.link = i ∧ w.tag = tag) }).answerWaitFree i tag .timeout
  else s

end Sys2Proof.Machine
end

