-- ==== Sys2Proof/Machine/Spaces.lean ====
section
/-! DEFINITION. The Map Unit's requests (chapters 3 and 4): the life of spaces, mapping, CLONE and USAGE. -/

namespace Sys2Proof.Machine

/-- The checks of a space request on its space id, its space and the link's right, in order (R50). -/
def State.findSpace (s : State) (i : LinkId) (id : Byte) (need : Need) : Except Status (SpaceId × SpaceRecord) :=
  match space? id with
  | none => .error .range
  | some sp =>
    match s.space sp with
    | none => .error .noSuchSpace
    | some r => if r.allows i need then .ok (sp, r) else .error .access

/-- The pages of a range in ascending order (3.5). -/
def pagesFrom (sp : SpaceId) (first count : Nat) : List BackRef :=
  (List.range count).filterMap fun k => (page? (first + k)).map fun p => (sp, p)

/-- The range of a mapping request, after the checks of R50 that come before it. -/
def State.findRange (s : State) (i : LinkId) (id : Byte) (need : Need) (first count : Nat) :
    Except Status (List BackRef) :=
  match s.findSpace i id need with
  | .error e => .error e
  | .ok (sp, r) => if r.rangeOk first count then .ok (pagesFrom sp first count) else .error .range

/-- Whether a page is present. -/
def State.present? (s : State) (p : BackRef) : Bool := (s.entry p).isSome

/-! ### Creation, destruction, grants -/

/-- The lowest-numbered ABSENT space (R51). -/
def State.absentSpace (s : State) : Option SpaceId := (List.finRange 16).find? fun i => (s.space i).isNone

/-- SPACE_CREATE (R51). -/
def serveSpaceCreate (i : LinkId) (tag : Byte) (size : Nat) (s : State) : State :=
  let refuse := fun (st : Status) => s.reply i .spaceCreate tag [st.code, 0, 0, 0]
  if size = 0 ∨ 256 < size then refuse .range
  else match s.absentSpace with
    | none => refuse .noSpace
    | some sp =>
      (s.setSpace sp (some { size, owner := i, guest := .none, pages := Vector.replicate 256 none })).reply i
        .spaceCreate tag (Status.ok.code :: spaceByte sp :: be16 size)

/-- What SPACE_DESTROY does to one slot that counts the space (R52): an open slot not yet HALTED halts with SPACE_GONE,
its waiting access being withdrawn, and the slot stops counting the space. -/
def State.slotSpaceGone (s : State) (sp : SpaceId) (k : SlotRef) : State :=
  match s.slot k with
  | .idle _ => s
  | .active t =>
    if t.counted && t.space = sp then
      match t.phase with
      | .halted _ => s.setSlot k (.active { t with counted := false })
      | _ => (s.setSlot k (.active { t with counted := false })).haltSlot k .spaceGone
    else s

/-- The present pages of a space in ascending order. -/
def State.presentPages (s : State) (sp : SpaceId) : List BackRef :=
  ((List.finRange 256).map fun p => (sp, p)).filter s.present?

/-- SPACE_DESTROY (R52–R54): the slots, the detaches in page order, the space, and the notice to the guest. -/
def serveSpaceDestroy (i : LinkId) (tag : Byte) (id : Byte) (s : State) : State :=
  match s.findSpace i id .owner with
  | .error e => s.reply i .spaceDestroy tag [e.code, id, 0, 0]
  | .ok (sp, r) =>
    let halted := slotRefs.foldl (fun s k => s.slotSpaceGone sp k) s
    let (detached, zeros) := halted.detachAll (halted.presentPages sp)
    let absent := detached.setSpace sp none
    let told := if r.guest = Right.none then absent else absent.raiseOn r.owner.other (.spaceChanged (spaceSet sp))
    told.reply i .spaceDestroy tag (Status.ok.code :: id :: be16 zeros)

/-- SPACE_GRANT (R55). -/
def serveSpaceGrant (i : LinkId) (tag : Byte) (id right : Byte) (s : State) : State :=
  match s.findSpace i id .owner with
  | .error e => s.reply i .spaceGrant tag [e.code, id, 0]
  | .ok (sp, r) =>
    match right? right with
    | none => s.reply i .spaceGrant tag [Status.range.code, id, 0]
    | some g =>
      let granted := s.setSpace sp (some { r with guest := g })
      let told := if g = r.guest then granted else granted.raiseOn r.owner.other (.spaceChanged (spaceSet sp))
      told.reply i .spaceGrant tag [Status.ok.code, id, g.code]

/-- SPACE_INFO (R56, Table 10-7). -/
def serveSpaceInfo (i : LinkId) (tag : Byte) (id : Byte) (s : State) : State :=
  match s.findSpace i id .read with
  | .error e => s.reply i .spaceInfo tag [e.code, id, 0, 0, 0, 0, 0, 0, 0]
  | .ok (sp, r) =>
    s.reply i .spaceInfo tag
      ([Status.ok.code, id] ++ be16 r.size ++ [ownerCode r.owner, r.guest.code] ++ be16 r.presentCount ++
        [u8 (s.openCount sp)])

/-! ### Mapping requests -/

/-- One page made present by MAP on a frame from the free queue (R57, R58). -/
def State.mapPage (s : State) (p : BackRef) (f : FrameId) : State :=
  (s.setFrame f { s.frame f with state := .held [p] }).setEntry p
    (some { frame := f, writeProtect := false, referenced := false, modified := false,
            copyPending := s.privateJobFor p })

/-- MAP (R31, R57): all or nothing. -/
def serveMap (i : LinkId) (tag : Byte) (id : Byte) (first count : Nat) (s : State) : State :=
  match s.findRange i id .write first count with
  | .error e => s.reply i .map tag [e.code, 0, 0]
  | .ok pages =>
    let absent := pages.filter fun p => !s.present? p
    let n := absent.length
    if s.freeCount < n then s.reply i .map tag (Status.noFrame.code :: be16 n)
    else
      let taken : State := { s with freeQueue := s.freeQueue.drop n }
      let mapped := (absent.zip (s.freeQueue.take n)).foldl (fun s (p, f) => s.mapPage p f) taken
      let examined := if n = 0 then mapped else mapped.examineFall
      examined.reply i .map tag (Status.ok.code :: be16 n)

/-- UNMAP (R59, R60). -/
def serveUnmap (i : LinkId) (tag : Byte) (id : Byte) (first count : Nat) (s : State) : State :=
  match s.findRange i id .write first count with
  | .error e => s.reply i .unmap tag [e.code, 0, 0]
  | .ok pages =>
    let present := pages.filter s.present?
    ((s.detachAll present).1).reply i .unmap tag (Status.ok.code :: be16 present.length)

/-- One page's entry changed, if it is present. -/
def State.changeEntry (change : MapEntry → MapEntry) (s : State) (p : BackRef) : State :=
  match s.entry p with
  | none => s
  | some e => s.setEntry p (some (change e))

/-- PROTECT (R61). -/
def serveProtect (i : LinkId) (tag : Byte) (id : Byte) (first count : Nat) (setting : Byte) (s : State) : State :=
  match s.findRange i id .write first count with
  | .error e => s.reply i .protect tag [e.code, 0, 0]
  | .ok pages =>
    match flag? setting with
    | none => s.reply i .protect tag [Status.range.code, 0, 0]
    | some on =>
      let changed := pages.filter fun p => match s.entry p with
        | some e => e.writeProtect != on
        | none => false
      (pages.foldl (State.changeEntry fun e => { e with writeProtect := on }) s).reply i .protect tag
        (Status.ok.code :: be16 changed.length)

/-- Whether a page is present with a flag set (R62). -/
def State.marked (s : State) (which : MapEntry → Bool) (p : BackRef) : Bool :=
  match s.entry p with
  | some e => which e
  | none => false

/-- USAGE (R62, R63): the report is formed before the flags are cleared. -/
def serveUsage (i : LinkId) (tag : Byte) (id : Byte) (first count : Nat) (clear : Byte) (s : State) : State :=
  match s.findRange i id .read first count with
  | .error e => s.reply i .usage tag [e.code, 0, 0]
  | .ok pages =>
    match flag? clear with
    | none => s.reply i .usage tag [Status.range.code, 0, 0]
    | some wipe =>
      let report := be16 count ++ markBytes (pages.map (s.marked MapEntry.referenced)) ++
        markBytes (pages.map (s.marked MapEntry.modified))
      let after := if wipe then
          pages.foldl (State.changeEntry fun e => { e with referenced := false, modified := false }) s
        else s
      after.reply i .usage tag (Status.ok.code :: report)

/-! ### CLONE -/

/-- The frame a page names. -/
def State.frameOf (s : State) (p : BackRef) : Option FrameId := (s.entry p).map MapEntry.frame

/-- Whether two ranges of one space share a page (R70). -/
def overlaps (first1 first2 count : Nat) : Bool := decide (first1 < first2 + count ∧ first2 < first1 + count)

/-- One destination page made present on the frame of its source page (R72). -/
def State.clonePage (s : State) (source dest : BackRef) : State :=
  match s.entry source with
  | none => s
  | some e =>
    let r := s.frame e.frame
    (s.setFrame e.frame { r with state := .held (r.state.refs ++ [dest]) }).setEntry dest
      (some { frame := e.frame, writeProtect := e.writeProtect, referenced := false, modified := false,
              copyPending := s.privateJobFor dest })

/-- The first of CLONE's checks that fails, or its pages (R70, R71). -/
def State.cloneChecks (s : State) (i : LinkId) (source : Byte) (sFirst : Nat) (dest : Byte) (dFirst count : Nat) :
    Except Status (List (BackRef × BackRef)) :=
  match space? source, space? dest with
  | some sp, some dp =>
    match s.space sp, s.space dp with
    | some sr, some dr =>
      if !sr.allows i .read then .error .access
      else if !dr.allows i .write then .error .access
      else if !sr.rangeOk sFirst count || !dr.rangeOk dFirst count then .error .range
      else if sp = dp ∧ overlaps sFirst dFirst count then .error .range
      else
        let sources := pagesFrom sp sFirst count
        let dests := pagesFrom dp dFirst count
        if sources.any fun p => !s.present? p then .error .notMapped
        else if dests.any s.present? then .error .exists
        else
          let frames := sources.filterMap s.frameOf
          if frames.any fun f => 64 < (s.frame f).shareCount + frames.count f then .error .shareLimit
          else .ok (sources.zip dests)
    | _, _ => .error .noSuchSpace
  | _, _ => .error .range

/-- CLONE (R70–R72). -/
def serveClone (i : LinkId) (tag : Byte) (source : Byte) (sFirst : Nat) (dest : Byte) (dFirst count : Nat)
    (s : State) : State :=
  match s.cloneChecks i source sFirst dest dFirst count with
  | .error e => s.reply i .clone tag [e.code, 0, 0]
  | .ok pairs =>
    (pairs.foldl (fun s (p, q) => s.clonePage p q) s).reply i .clone tag (Status.ok.code :: be16 count)

end Sys2Proof.Machine
end

