-- ==== Sys2Proof/Machine/Transfers.lean ====
section
/-! DEFINITION. Transfers (chapter 8): the slots' requests, translation (chapter 3), and a segment's access. -/

namespace Sys2Proof.Machine

/-! ### OPEN -/

/-- OPEN (R153, R154). The checks of the space and the right come between the slot's and the range's. -/
def serveOpen (i : LinkId) (tag : Byte) (slot direction id : Byte) (start length : Nat) (s : State) : State :=
  let refuse := fun (st : Status) => s.reply i .openSlot tag [st.code, slot]
  match slot? slot, direction? direction with
  | some k, some d =>
    match s.slot (i, k) with
    | .active _ => refuse .slotBusy
    | .idle _ =>
      match s.findSpace i id d.need with
      | .error e => refuse e
      | .ok (sp, r) =>
        if 131071 < start ∨ length = 0 ∨ 131072 < length ∨ r.size * 512 < start + length then refuse .range
        else
          (s.setSlot (i, k) (.active
            { phase := .data, direction := d, space := sp, counted := true, start, length, position := 0,
              toggle := false, last := none, timer := (s.link i).startedTimer })).reply i .openSlot tag
            [Status.ok.code, slot]
  | _, _ => refuse .range

/-! ### CLOSE and expiry -/

/-- CLOSE (R169, Table 8-4). -/
def serveClose (i : LinkId) (tag : Byte) (slot : Byte) (s : State) : State :=
  match slot? slot with
  | none => s.reply i .closeSlot tag ([Status.range.code, slot, 0] ++ be24 0)
  | some k =>
    match s.slot (i, k) with
    | .idle _ => s.reply i .closeSlot tag ([Status.slotIdle.code, slot, 0] ++ be24 0)
    | .active t =>
      (s.idleSlot (i, k) (some { status := t.phase.finalStatus, position := t.position })).reply i .closeSlot tag
        ([Status.ok.code, slot, t.phase.finalStatus.code] ++ be24 t.position)

/-- The expiry of a slot's idle timer (R172); nothing if the timer is not running. -/
def State.expireSlot (s : State) (k : SlotRef) : State :=
  match s.slot k with
  | .idle _ => s
  | .active t =>
    if t.timer = .running then
      (s.idleSlot k (some { status := .expired, position := t.position })).raiseOn k.1 (.slotExpired (slotSet k.2))
    else s

/-! ### Translation (R64, R65) -/

/-- What translation finds on one page (Table 3-4). -/
inductive PageAnswer where
  | moveOk (frame : FrameId)
  | halt (cause : HaltCause)
  | waitMove (frame : FrameId)
  | waitCopy
  | needsCopy (entry : MapEntry)
  deriving DecidableEq, Repr

/-- The answer of one page: the first check of Table 3-4 that holds (R65). -/
def State.translatePage (s : State) (d : Direction) (p : BackRef) : PageAnswer :=
  match s.entry p with
  | none => .halt .notMapped
  | some e =>
    let r := s.frame e.frame
    if d = .write ∧ e.writeProtect then .halt .writeProtected
    else if r.poisoned then .halt .dataLost
    else if d = .read then .moveOk e.frame
    else if r.moving then .waitMove e.frame
    else if e.copyPending then .waitCopy
    else if 1 < r.shareCount then .needsCopy e
    else .moveOk e.frame

/-- The pages a run of bytes touches, each with the offset and count of its bytes (R64). -/
def pagesTouched (address count : Nat) : List (Nat × Nat × Nat) :=
  let page := address / 512
  let offset := address % 512
  if offset + count ≤ 512 then [(page, offset, count)]
  else [(page, offset, 512 - offset), (page + 1, 0, offset + count - 512)]

/-- What translation hands to the slot (Table 3-5): the parts to access, or the page that decided and its answer. -/
inductive Translation where
  | moveOk (parts : List Part) (pages : List BackRef)
  | stop (page : BackRef) (answer : PageAnswer)
  deriving DecidableEq, Repr

/-- Translation of a segment, page by page; the first page that does not answer MOVE-OK decides (R65). A page number
outside 0–255 names no entry. -/
def State.translate (s : State) (d : Direction) (sp : SpaceId) : List (Nat × Nat × Nat) → Translation
  | [] => .moveOk [] []
  | (number, offset, count) :: rest =>
    match page? number with
    | none => .stop (sp, 0) (.halt .notMapped)
    | some page =>
      match s.translatePage d (sp, page) with
      | .moveOk f =>
        match s.translate d sp rest with
        | .moveOk parts pages => .moveOk ({ frame := f, offset, count } :: parts) ((sp, page) :: pages)
        | stop => stop
      | answer => .stop (sp, page) answer

/-! ### The segment's grant (R159–R167) -/

/-- A page's flags after a completed segment access (R67). -/
def markPage (d : Direction) (e : MapEntry) : MapEntry :=
  { e with referenced := true, modified := e.modified || decide (d = .write) }

/-- A segment accepted (R164, R167): the position rises, the toggle flips, the last segment is recorded, the pages are
marked, the slot becomes FINAL at its length, and the SEG is answered OK. -/
def State.acceptSegment (s : State) (k : SlotRef) (g : Segment) (t : Transfer) (pages : List BackRef)
    (data : List Byte) : State :=
  let position := t.position + g.count
  let t' : Transfer := { t with
    phase := if position = t.length then .final else .data
    position := position
    toggle := !t.toggle
    last := some { toggle := g.toggle, count := g.count, position := position, data := data } }
  ((pages.foldl (State.changeEntry (markPage t.direction)) s).setSlot k (.active t')).segReply k g.tag .ok data

/-- The outcome of a translation that stops the segment, as the slot sees it (Table 8-3, R78, R79). A slot answered
WAIT for a full copy job queue stands in no waiter set (R175), so it leaves one it stood in (log 22). -/
def State.stopSegment (s : State) (k : SlotRef) (g : Segment) (p : BackRef) (answer : PageAnswer) : State :=
  match answer with
  | .moveOk _ => s
  | .halt cause => s.haltReply k g.tag cause
  | .waitMove f =>
    (s.joinWaiters k fun j => match j.kind with
      | .move _ => j.source = f
      | .privateCopy _ => false).segReply k g.tag .wait []
  | .waitCopy => (s.joinWaiters k fun j => j.kind = .privateCopy p).segReply k g.tag .wait []
  | .needsCopy e =>
    if jobLimit ≤ s.jobs.length then (s.leaveWaiters k).segReply k g.tag .wait []
    else if s.freeQueue = [] then s.haltReply k g.tag .noFrame
    else ((s.leaveWaiters k).makePrivate p e k).segReply k g.tag .wait []

/-- The data move of a segment translated MOVE-OK (R164, R165, R167): the access, the Frame Table's effects, then the
slot's response. -/
def State.moveSegment (s : State) (k : SlotRef) (g : Segment) (t : Transfer) (parts : List Part)
    (pages : List BackRef) : State :=
  match t.direction with
  | .read =>
    let (memory, errors, data) := s.memory.segmentRead parts
    let s' := ({ s with memory := memory }).commonEffects .read errors
    match data with
    | some bytes => s'.acceptSegment k g t pages bytes
    | none => s'.haltReply k g.tag .dataLost
  | .write =>
    let (memory, errors, written) := s.memory.segmentWrite parts g.bytes
    let s' := ({ s with memory := memory }).commonEffects .merge errors
    if written then s'.acceptSegment k g t pages [] else s'.haltReply k g.tag .dataLost

/-- A segment's access at its grant: the right examined again (R160), the translation, and the slot's action within the
same grant (R161). The SEG is complete with its reply. -/
def State.grantSegment (s : State) (i : LinkId) : State :=
  match (s.link i).segment with
  | none => s
  | some g =>
    let s := s.onLink i fun l => { l with segment := none }
    let k : SlotRef := (i, g.slot)
    match s.slot k with
    | .idle _ => s
    | .active t =>
      let allowed := match s.space t.space with
        | none => false
        | some r => r.allows i t.direction.need
      if allowed then
        match s.translate t.direction t.space (pagesTouched (t.start + t.position) g.count) with
        | .moveOk parts pages => s.moveSegment k g t parts pages
        | .stop p answer => s.stopSegment k g p answer
      else s.haltReply k g.tag .access

/-! ### SEG -/

/-- A SEG taken for an open slot (R156–R158, R163, R166): answered at once, or its access presented. `body` holds the
bytes of a write, `count` the number of bytes written or asked for. -/
def State.takeSegment (s : State) (k : SlotRef) (tag : Byte) (t : Transfer) (toggle : Bool) (body : List Byte)
    (count : Nat) : State :=
  match t.phase with
  | .halted cause => s.segReply k tag (.halted cause) []
  | phase =>
    if toggle ≠ t.toggle then
      match t.last with
      | some l => s.segReply k tag .ok l.data
      | none => s.haltReply k tag .sequence
    else if phase = .final then s.segReply k tag .pastEnd []
    else if t.direction = .write ∧ t.length - t.position < count then s.haltReply k tag .overrun
    else
      let g : Segment := { tag, slot := k.2, toggle, bytes := body, count := min count (t.length - t.position) }
      ((s.setSlot k (.active { t with timer := .stopped })).onLink k.1 fun l =>
        { l with segment := some g }).present (.dataPath k.1)

/-- SEG (R155): the parameters in order; a SEG refused here changes nothing in the slot. `body` is the payload after the
slot and toggle. -/
def serveSeg (i : LinkId) (tag : Byte) (slot toggle : Byte) (body : List Byte) (s : State) : State :=
  match slot? slot with
  | none => s.reply i .seg tag (segPayload .range slot false 0 [])
  | some k =>
    match s.slot (i, k) with
    | .idle _ =>
      s.reply i .seg tag (segPayload (if flag? toggle = none then .range else .slotIdle) slot false 0 [])
    | .active t =>
      let refuse := s.reply i .seg tag (segPayload .range slot t.toggle t.position [])
      match flag? toggle with
      | none => refuse
      | some b =>
        match t.direction, body with
        | .write, _ => s.takeSegment (i, k) tag t b body body.length
        | .read, [count] =>
          if 1 ≤ count.toNat ∧ count.toNat ≤ 64 then s.takeSegment (i, k) tag t b [] count.toNat else refuse
        | .read, _ => refuse

/-! ### SLOT_INFO -/

/-- The job a slot waits on, if it stands in a waiter set (R176). -/
def State.waitsOn (s : State) (k : SlotRef) : Option CopyJob := s.jobs.find? fun j => k ∈ j.waiters

/-- SLOT_INFO (R176, Table 10-10). -/
def serveSlotInfo (i : LinkId) (tag : Byte) (slot : Byte) (s : State) : State :=
  match slot? slot with
  | none => s.reply i .slotInfo tag (Status.range.code :: List.replicate 23 0)
  | some k =>
    let body := match s.slot (i, k) with
      | .idle last =>
        List.replicate 17 0 ++ match last with
          | none => List.replicate 4 0
          | some o => o.status.code :: be24 o.position
      | .active t =>
        [t.direction.code, if t.counted then spaceByte t.space else 0] ++ be24 t.start ++ be24 t.length ++
        be24 t.position ++ [flag t.toggle] ++
        (match t.last with
          | none => [0, 0]
          | some l => [1 ||| (if l.toggle then 2 else 0), u8 l.count]) ++
        [match t.phase with
          | .halted c => c.code
          | _ => 0,
         waiterCode ((s.waitsOn (i, k)).map CopyJob.kind), t.timer.code] ++ List.replicate 4 0
    s.reply i .slotInfo tag ([Status.ok.code, slot, (s.slot (i, k)).code] ++ body)

end Sys2Proof.Machine
end

