-- ==== Sys2Proof/Machine/Session.lean ====
section
/-! DEFINITION. Link sessions (chapter 7): link reset, HELLO, GOODBYE, WAKE, CONFIG and the status requests; and
FRAME_INFO (chapter 1). -/

namespace Sys2Proof.Machine

/-! ### Link reset (R134) -/

/-- The CHECK queue after a link reset: the link's entries leave it (R108). -/
def dropRequests (i : LinkId) (qs : List FrameRequest) : List FrameRequest := qs.filter fun q => q.link ≠ i

/-- The engine after a link reset: a check in progress for the link goes on with no link or tag (R108). -/
def Engine.dropLink (e : Engine) (i : LinkId) : Engine :=
  match e with
  | .busy f (.request j tag) => if j = i then .busy f .orphan else .busy f (.request j tag)
  | e => e

/-- A copy job after a link reset: the link's slots leave its waiters, and the link its requester (R92). -/
def CopyJob.dropLink (j : CopyJob) (i : LinkId) : CopyJob :=
  { j with
    waiters := j.waiters.filter fun w => w.1 ≠ i
    kind := match j.kind with
      | .privateCopy p => .privateCopy p
      | .move (some (r, tag)) => if r = i then .move none else .move (some (r, tag))
      | .move none => .move none }

/-- A link reset (R134, Table 7-3): the link's controller takes its reset values, keeping its bit rate, and the link
leaves every other block's lists. The link is DOWN. -/
def State.linkReset (s : State) (i : LinkId) (rxdLow : Bool) : State :=
  (State.withdraw
    { s with
      waiters := s.waiters.filter fun w => w.link ≠ i
      jobs := s.jobs.map fun j => j.dropLink i
      scrub := { s.scrub with
        engine := s.scrub.engine.dropLink i
        checkQueue := dropRequests i s.scrub.checkQueue
        retireWait := dropRequests i s.scrub.retireWait } } (.dataPath i)).setLink i
    (Link.initial (s.link i).rate rxdLow)

/-- A DORMANT link returns to UP at a sound message: its slot timers resume (R132, R171). -/
def State.wakeLink (s : State) (i : LinkId) : State :=
  if (s.link i).state = .dormant then
    s.onLink i fun l => { l with
      state := .up
      slots := ⟨⟨l.slots.toList.map fun k => match k with
        | .active t => .active { t with timer := if t.timer = .paused then .running else t.timer }
        | .idle last => .idle last⟩, by simp⟩ }
  else s

/-- The expiry of the dormancy timer (R131): the link becomes DORMANT and its slot timers pause (R171). -/
def State.goDormant (s : State) (i : LinkId) : State :=
  if (s.link i).dormancyTimer = .running then
    s.onLink i fun l => { l with
      state := .dormant
      dormancyTimer := .stopped
      slots := ⟨⟨l.slots.toList.map fun k => match k with
        | .active t => .active { t with timer := if t.timer = .running then .paused else t.timer }
        | .idle last => .idle last⟩, by simp⟩ }
  else s

/-! ### HELLO, GOODBYE, WAKE -/

/-- The HELLO reply's payload: the identity of the part and the retired count (R149, R193). -/
def State.identity (s : State) : List Byte :=
  Status.ok.code :: be16 0x0416 ++ [1] ++ be16 4096 ++ be16 512 ++ [16, 4] ++ be16 s.scrub.retired.length

/-- HELLO (R128, R129): another version is refused with VERSION; version 1 makes a link reset first on a link that is
not DOWN, then the link UP and the reply. -/
def serveHello (i : LinkId) (m : Message) (version : Byte) (rxdLow : Bool) (s : State) : State :=
  if version ≠ 1 then s.reject i m .version
  else
    let s' := if (s.link i).state = .down then s else s.linkReset i rxdLow
    (s'.onLink i fun l => { l with state := .up }).reply i .hello m.tag s'.identity

/-- GOODBYE (R130): answered OK; the link reset follows at the last byte of the reply. -/
def serveGoodbye (i : LinkId) (tag : Byte) (s : State) : State := s.reply i .goodbye tag [Status.ok.code]

/-- WAKE (R132). -/
def serveWake (i : LinkId) (tag : Byte) (s : State) : State := s.reply i .wake tag [Status.ok.code]

/-! ### CONFIG (R145) -/

/-- The six settings (Table 7-7). -/
inductive ConfigItem where
  | noticeMask
  | dormancyInterval
  | slotTimeout
  | scrubInterval
  | retireThreshold
  | lowMark
  deriving DecidableEq, Repr

/-- The code of an item (Table 7-7). -/
def ConfigItem.code : ConfigItem → Nat
  | .noticeMask => 1
  | .dormancyInterval => 2
  | .slotTimeout => 3
  | .scrubInterval => 4
  | .retireThreshold => 5
  | .lowMark => 6

/-- The item a code names (Table 7-7). -/
def configItem? (code : Nat) : Option ConfigItem :=
  [ConfigItem.noticeMask, .dormancyInterval, .slotTimeout, .scrubInterval, .retireThreshold, .lowMark].find?
    fun c => c.code = code

/-- The value of an item in force, as CONFIG carries it (R193). -/
def State.configValue (s : State) (i : LinkId) : ConfigItem → Nat
  | .noticeMask => (s.link i).noticeMask.toNat
  | .dormancyInterval => (s.link i).dormancyInterval
  | .slotTimeout => (s.link i).slotTimeout
  | .scrubInterval => s.scrub.interval
  | .retireThreshold => s.scrub.threshold
  | .lowMark => s.lowMark

/-- Whether a value is in an item's range (Table 7-7). A notice mask names classes 1–7 only, so bit 0 and the high byte
are 0 (R145, R193). -/
def ConfigItem.inRange (c : ConfigItem) (v : Nat) : Bool :=
  match c with
  | .noticeMask => v < 256 && v % 2 = 0
  | .dormancyInterval => v ≤ 255
  | .slotTimeout => v ≤ 255
  | .scrubInterval => v ≤ 1000
  | .retireThreshold => 1 ≤ v && v ≤ 15
  | .lowMark => v ≤ 4095

/-- The notice mask set (R146). -/
def State.setNoticeMask (s : State) (i : LinkId) (v : Nat) : State :=
  s.onLink i fun l => { l with noticeMask := BitVec.ofNat 8 v }

/-- The dormancy interval set; the timer starts from zero or stops (R146). -/
def State.setDormancyInterval (s : State) (i : LinkId) (v : Nat) : State :=
  s.onLink i fun l => { l with dormancyInterval := v }

/-- The slot timeout set; the timer of every open slot of the link starts from zero, or stops (R146, R170). -/
def State.setSlotTimeout (s : State) (i : LinkId) (v : Nat) : State :=
  s.onLink i fun l =>
    let l' : Link := { l with slotTimeout := v }
    { l' with slots := ⟨⟨l.slots.toList.map fun k => match k with
        | .active t => .active { t with timer := l'.startedTimer }
        | .idle last => .idle last⟩, by simp⟩ }

/-- The scrub interval set (R95). A visit that is no longer due, or a timer restarted, brings no work. -/
def State.setScrubInterval (s : State) (v : Nat) : State := { s with scrub := s.scrub.setInterval v }

/-- The retire threshold set, for later comparisons (R102). -/
def State.setThreshold (s : State) (v : Nat) : State := { s with scrub := { s.scrub with threshold := v } }

/-- The low mark set, and the supply state re-examined at once (R38). -/
def State.setLowMark (s : State) (v : Nat) : State :=
  State.setSupply { s with lowMark := v } (s.supply.afterMark s.freeCount v)

/-- A setting given a value in its range (R145). -/
def State.setConfig (s : State) (i : LinkId) (c : ConfigItem) (v : Nat) : State :=
  match c with
  | .noticeMask => s.setNoticeMask i v
  | .dormancyInterval => s.setDormancyInterval i v
  | .slotTimeout => s.setSlotTimeout i v
  | .scrubInterval => s.setScrubInterval v
  | .retireThreshold => s.setThreshold v
  | .lowMark => s.setLowMark v

/-- CONFIG (R145): the item's low seven bits are its code and its high bit the query flag. -/
def serveConfig (i : LinkId) (tag : Byte) (item : Byte) (v : Nat) (s : State) : State :=
  let answer := fun (st : Status) (value : Nat) (s : State) =>
    s.reply i .config tag ([st.code, item] ++ be16 value)
  match configItem? (item.toNat % 128) with
  | none => answer .range 0 s
  | some c =>
    if item.msb then
      if v = 0 then answer .ok (s.configValue i c) s else answer .range (s.configValue i c) s
    else if c.inRange v then answer .ok v (s.setConfig i c v)
    else answer .range (s.configValue i c) s

/-! ### Status requests -/

/-- LINK_STATUS (R147, Table 10-5). -/
def serveLinkStatus (i : LinkId) (tag : Byte) (clear : Byte) (s : State) : State :=
  match flag? clear with
  | none => s.reply i .linkStatus tag (Status.range.code :: List.replicate 11 0)
  | some wipe =>
    let l := s.link i
    let report := [Status.ok.code, l.state.code] ++ be16 l.discarded ++
      [u8 l.deferred.length, u8 (l.deferred.countP fun e => !e.answered)] ++
      l.slots.toList.map Slot.code ++ [noticeClasses l.notices, l.noticeMask]
    (if wipe then s.onLink i fun l => { l with discarded := 0 } else s).reply i .linkStatus tag report

/-- The number of LIVE spaces (Table 7-8). -/
def State.liveSpaces (s : State) : Nat := s.spaces.toList.countP Option.isSome

/-- The number of HELD frames (Table 7-8). -/
def State.heldCount (s : State) : Nat := s.frames.toList.countP fun r => r.state.isHeld

/-- PART_STATUS (R148, Table 7-8, Table 10-6). -/
def servePartStatus (i : LinkId) (tag : Byte) (s : State) : State :=
  s.reply i .partStatus tag
    (Status.ok.code :: be16 s.clearQueue.length ++ be16 s.freeCount ++ be16 s.heldCount ++ [u8 s.jobs.length] ++
      be16 s.scrub.retired.length ++ [s.supply.code] ++ be16 s.scrub.discretionary ++ [u8 s.jobs.length] ++
      be16 s.scrub.cursor.val ++ wordBytes s.scrub.passCount ++ [u8 s.liveSpaces])

/-- FRAME_INFO (R23, Table 10-11). -/
def serveFrameInfo (i : LinkId) (tag : Byte) (number : Nat) (s : State) : State :=
  match frame? number with
  | none => s.reply i .frameInfo tag (Status.range.code :: List.replicate 11 0)
  | some f =>
    let r := s.frame f
    let entries := r.state.refs.take 16
    s.reply i .frameInfo tag
      (Status.ok.code :: be16 f.val ++
        [r.state.code, u8 r.shareCount, u8 r.tally, r.flagByte ||| (if r.lastError.isSome then 8 else 0)] ++
        (match r.lastError with
          | none => [0, 0, 0, 0]
          | some e => [u8 e.word.val, e.kind.code, e.kind.bitByte, e.finder.code]) ++
        [u8 entries.length] ++ entries.flatMap fun p => [spaceByte p.1, u8 p.2.val])

end Sys2Proof.Machine
end

