-- ==== Sys2Proof/Machine/Intake.lean ====
section
/-! DEFINITION. Intake (R136–R139), the arbiter's grants (R10), the transmitters (R125, R184), and how one event ends. -/

namespace Sys2Proof.Machine

/-! ### Intake -/

/-- The request of an accepted message, its payload read by its kind (chapter 10). A payload of another length has been
refused at intake. -/
def serve (i : LinkId) (kind : RequestKind) (m : Message) (rxdLow : Bool) (s : State) : State :=
  match kind, m.payload with
  | .hello, [v] => serveHello i m v rxdLow s
  | .goodbye, _ => serveGoodbye i m.tag s
  | .wake, _ => serveWake i m.tag s
  | .config, [item, a, b] => serveConfig i m.tag item (nat16 a b) s
  | .linkStatus, [c] => serveLinkStatus i m.tag c s
  | .partStatus, _ => servePartStatus i m.tag s
  | .spaceCreate, [a, b] => serveSpaceCreate i m.tag (nat16 a b) s
  | .spaceDestroy, [id] => serveSpaceDestroy i m.tag id s
  | .spaceGrant, [id, right] => serveSpaceGrant i m.tag id right s
  | .spaceInfo, [id] => serveSpaceInfo i m.tag id s
  | .map, [id, a, b, c, d] => serveMap i m.tag id (nat16 a b) (nat16 c d) s
  | .unmap, [id, a, b, c, d] => serveUnmap i m.tag id (nat16 a b) (nat16 c d) s
  | .protect, [id, a, b, c, d, on] => serveProtect i m.tag id (nat16 a b) (nat16 c d) on s
  | .clone, [sp, a, b, dp, c, d, e, f] => serveClone i m.tag sp (nat16 a b) dp (nat16 c d) (nat16 e f) s
  | .usage, [id, a, b, c, d, wipe] => serveUsage i m.tag id (nat16 a b) (nat16 c d) wipe s
  | .openSlot, [k, d, id, a, b, c, e, f, g] => serveOpen i m.tag k d id (nat24 a b c) (nat24 e f g) s
  | .seg, k :: toggle :: body => serveSeg i m.tag k toggle body s
  | .closeSlot, [k] => serveClose i m.tag k s
  | .slotInfo, [k] => serveSlotInfo i m.tag k s
  | .frameInfo, [a, b] => serveFrameInfo i m.tag (nat16 a b) s
  | .retire, [a, b] => serveRetire i m.tag (nat16 a b) s
  | .check, [a, b] => serveCheck i m.tag (nat16 a b) s
  | .waitFree, [a, b, c, d] => serveWaitFree i m.tag (nat16 a b) (nat16 c d) s
  | _, _ => s

/-- The first intake check that fails, or the request kind (R137, Table 7-5). -/
def Link.intake (l : Link) (m : Message) : Except Status RequestKind :=
  match requestKind? m.kind with
  | none => .error .badKind
  | some kind =>
    if !kind.lengthOk m.payload.length then .error .badLength
    else if m.tag = 0 then .error .badTag
    else if l.deferred.any fun e => e.tag = m.tag then .error .tagInUse
    else if l.state = .down ∧ kind ≠ .hello then .error .notUp
    else if kind.deferred?.isSome ∧ 4 ≤ l.deferred.length then .error .busy
    else .ok kind

/-- An accepted deferred request enters the table PENDING (R140). -/
def State.acceptDeferred (s : State) (i : LinkId) (kind : RequestKind) (tag : Byte) : State :=
  match kind.deferred? with
  | none => s
  | some d => s.onLink i fun l => { l with deferred := l.deferred ++ [{ tag, kind := d, answered := false }] }

/-- A message taken whole (R136): intake, and the request's processing or the REJECT. `rxdLow` is the level of RXD at
the taking. -/
def State.take (s : State) (i : LinkId) (m : Message) (rxdLow : Bool) : State :=
  match (s.link i).intake m with
  | .error status => s.reject i m status
  | .ok kind => serve i kind m rxdLow (s.acceptDeferred i kind m.tag)

/-! ### The arbiter (R10) -/

/-- The ring of clients, from the one after a client (R10). -/
def Client.ring : Client → List Client
  | .dataPath .link0 => [.dataPath .link1, .copyEngine, .clearer, .scrubber, .dataPath .link0]
  | .dataPath .link1 => [.copyEngine, .clearer, .scrubber, .dataPath .link0, .dataPath .link1]
  | .copyEngine => [.clearer, .scrubber, .dataPath .link0, .dataPath .link1, .copyEngine]
  | .clearer => [.scrubber, .dataPath .link0, .dataPath .link1, .copyEngine, .clearer]
  | .scrubber => [.dataPath .link0, .dataPath .link1, .copyEngine, .clearer, .scrubber]

/-- The waiting client that comes first in the ring after the last-served one (R10). -/
def Arbiter.next (a : Arbiter) : Option Client := a.lastServed.ring.find? fun c => c ∈ a.waiting

/-- A whole-frame access in progress, with the store after its grant. -/
def State.begin (s : State) (a : Access) (memory : Memory) : State :=
  { s with memory := memory, arbiter := { s.arbiter with current := some a } }

/-- The access of a client at its grant. A clear, copy or check occupies the store until its completion, its effect on
the stored words being made now (log 11); a segment access is resolved within its grant (R11, R64). -/
def State.runAccess (s : State) : Client → State
  | .dataPath i => s.grantSegment i
  | .clearer =>
    match s.clearQueue with
    | [] => s
    | f :: _ => s.begin (.clear f) (s.memory.clearFrame f)
  | .copyEngine =>
    match s.jobs with
    | [] => s
    | j :: _ =>
      let (memory, errors) := s.memory.frameCopy j.source j.target
      s.begin (.copy j.source j.target errors) memory
  | .scrubber =>
    match s.scrub.engine with
    | .idle => s
    | .busy f _ =>
      let (memory, errors) := s.memory.frameCheck f
      s.begin (.check f errors) memory

/-- A client granted the store: it no longer waits and is last-served (R10). -/
def State.grant (s : State) (c : Client) : State :=
  State.runAccess
    { s with arbiter := { s.arbiter with
        waiting := s.arbiter.waiting.filter fun d => d ≠ c
        lastServed := c } } c

/-- The arbiter's grants while the store is idle: each waiting segment is resolved in its turn, until a whole-frame
access occupies the store or none waits. Each of the five clients is granted at most once, but for the Copy Engine,
which a segment's grant may present again (R78): six grants are enough. -/
def State.arbitrate (s : State) (fuel : Nat) : State :=
  match fuel with
  | 0 => s
  | fuel + 1 =>
    if s.arbiter.current.isSome then s
    else match s.arbiter.next with
      | none => s
      | some c => (s.grant c).arbitrate fuel

/-! ### The transmitter and the lines (R125, R131, R184, R187) -/

/-- The NOTICE message of a pending notice (R197). -/
def Notice.message (n : Notice) : Outgoing :=
  { kind := noticeKind, tag := 0, payload := n.payload, place := .notice }

/-- The transmitter takes its next message if it is idle and may send: the queue's oldest, and on an UP link with an
empty queue the oldest unmasked notice, which leaves the set (R125, R184). -/
def Link.transmit (l : Link) : Link :=
  if l.sending.isSome ∨ l.state = .dormant then l
  else match l.queue with
    | m :: rest => { l with queue := rest, sending := some m }
    | [] =>
      if l.state = .up then
        match l.nextNotice with
        | some n => { l with notices := l.notices.erase n, sending := some n.message }
        | none => l
      else l

/-- The link at the end of an event: the transmitter, then the dormancy timer's condition and the ATTN level (R131,
R187). -/
def Link.settle (l : Link) : Link :=
  let l' := l.transmit
  { l' with dormancyTimer := l'.dormancyCondition, attn := l'.attention }

/-- Both links at the end of an event. -/
def State.settle (s : State) : State := { s with link0 := s.link0.settle, link1 := s.link1.settle }

/-- The end of one event: the arbiter's grants, then the transmitters and lines (log 8). -/
def State.endEvent (s : State) : State := (s.arbitrate 6).settle

/-! ### Messages awaiting intake (R136) -/

/-- Whether a link has a message awaiting intake that can be taken: no SEG of the link is in processing. -/
def Link.canTake (l : Link) : Bool := l.segment.isNone && !l.awaiting.isEmpty

/-- The link whose awaiting message is taken next; where both have one, a free value chooses (log 9). -/
def State.nextLink (s : State) : Option LinkId :=
  match s.link0.canTake, s.link1.canTake with
  | false, false => none
  | true, false => some .link0
  | false, true => some .link1
  | true, true => some (if Config.link1First s.freeIndex then .link1 else .link0)

/-- The level of RXD at the taking of a message that awaited intake: low in LOW, else a free value (log 10). -/
def State.rxdAtTaking (s : State) (i : LinkId) : Bool :=
  (s.link i).rx.state = .low || Config.rxdLowMidCharacter s.freeIndex

/-- The messages awaiting intake taken, each an event of its own. `fuel` is the number that await. -/
def State.drain (s : State) (fuel : Nat) : State :=
  match fuel with
  | 0 => s
  | fuel + 1 =>
    match s.nextLink with
    | none => s
    | some i =>
      match (s.link i).awaiting with
      | [] => s
      | m :: rest =>
        let s' := State.onLink { s with freeIndex := s.freeIndex + 1 } i fun l => { l with awaiting := rest }
        (s'.take i m (s.rxdAtTaking i)).endEvent.drain fuel

/-- The end of a step: the event's end, then the messages awaiting intake that can be taken. -/
def State.finish (s : State) : State :=
  let s' := s.endEvent
  s'.drain (s'.link0.awaiting.length + s'.link1.awaiting.length)

/-! ### Hand-over (R118, R124) -/

/-- A sound message handed over by the receiver, which returns to HUNT (R118): with all 8 general places occupied it is
discarded and counted (R124); otherwise a DORMANT link returns to UP (R132), and the message is taken, or awaits intake
behind the SEG in processing (R136). -/
def State.handOver (s : State) (i : LinkId) (m : Message) : State :=
  let s := s.onLink i fun l => { l with rx := Receiver.hunting }
  if 8 ≤ (s.link i).generalOccupied then s.onLink i Link.countDiscard
  else
    let s := s.wakeLink i
    let l := s.link i
    if l.segment.isSome ∨ l.awaiting ≠ [] then
      (s.onLink i fun l => { l with awaiting := l.awaiting ++ [m] }).finish
    else (s.take i m false).finish

/-- Whether a receiver can take a character: RESET_N is high (R115) and RXD has returned high (R122). -/
def State.receiving (s : State) (i : LinkId) : Bool := !s.resetLow && (s.link i).rx.state ≠ .low

/-- A message row: the event at which the message's link frame has been received whole and sound (log 7). It cannot
occur while the receiver takes no characters (log 4). -/
def State.receive (s : State) (i : LinkId) (m : Message) : State :=
  if s.receiving i then s.handOver i m else s

end Sys2Proof.Machine
end

