-- ==== Sys2Proof/Machine/Events.lean ====
section
/-! DEFINITION. The events inside the part: resets, completions, expiries, the end of a sent message, and a storage
fault. An event that cannot occur in the state leaves it unchanged (log 4). -/

namespace Sys2Proof.Machine

/-! ### Resets -/

/-- POWER_ON (R24, R44, R69, R93, R114, R126, R127, R177, R179): every block at its power-on value, the straps sampled,
the stored data undefined; the Clearer begins (R26). The queue of commands is the model's own and is kept. -/
def execPowerOn (pins0 pins1 : LinkPins) (s : State) : Host.Outcome State Fault Refusal :=
  .next <| State.finish <| State.kickClearer
    { resetLow := false
      memory := { cells := [], damage := [], undefinedSince := Vector.replicate 4096 (some s.freeIndex) }
      arbiter := { current := none, waiting := [], lastServed := .scrubber }
      frames := Vector.replicate 4096 FrameRecord.initial
      clearQueue := List.finRange 4096
      freeQueue := []
      supply := .normal
      lowMark := 64
      waiters := []
      spaces := Vector.replicate 16 none
      jobs := []
      scrub := Scrubber.initial
      link0 := Link.initial pins0.rate pins0.rxdLow
      link1 := Link.initial pins1.rate pins1.rxdLow
      freeIndex := s.freeIndex + 1
      pending := s.pending }

/-- RESET_N asserted (R11, R24, R44, R69, R93, R108, R114, R126, R127): the whole part but for the RETIRED frames, the
retired list, the discretionary count and the bit rates, which are sampled at the release (R115). -/
def execResetN (s : State) : Host.Outcome State Fault Refusal :=
  .next <| State.finish <| State.kickClearer
    { resetLow := true
      memory := s.memory.forget ⟨⟨s.frames.toList.map fun r => r.state = .retired⟩, by simp⟩ s.freeIndex
      arbiter := { current := none, waiting := [], lastServed := .scrubber }
      frames := ⟨⟨s.frames.toList.map FrameRecord.afterResetN⟩, by simp⟩
      clearQueue := (List.finRange 4096).filter fun f => (s.frame f).state ≠ .retired
      freeQueue := []
      supply := .normal
      lowMark := 64
      waiters := []
      spaces := Vector.replicate 16 none
      jobs := []
      scrub := { Scrubber.initial with retired := s.scrub.retired, discretionary := s.scrub.discretionary }
      link0 := Link.initial s.link0.rate false
      link1 := Link.initial s.link1.rate false
      freeIndex := s.freeIndex + 1
      pending := s.pending }

/-- RESET_N released (R115, R122, R126): the straps are sampled, and each receiver stands in HUNT, or in LOW if its RXD
is low. Nothing if RESET_N is not low. -/
def execResetNRelease (pins0 pins1 : LinkPins) (s : State) : Host.Outcome State Fault Refusal :=
  .next <|
    if s.resetLow then
      { s with
        resetLow := false
        link0 := { s.link0 with rate := pins0.rate, rx := Receiver.afterReset pins0.rxdLow }
        link1 := { s.link1 with rate := pins1.rate, rx := Receiver.afterReset pins1.rxdLow } }
    else s

/-! ### The transmitter -/

/-- MESSAGE_SENT (R125): the last byte of the message being sent frees its place; a deferred reply's table entry is
removed (R140); the GOODBYE reply's last byte makes the link reset (R130). `rxdLow` is the level of RXD at the event
(R122, log 10). Nothing if no message is being sent. -/
def execMessageSent (i : LinkId) (rxdLow : Bool) (s : State) : Host.Outcome State Fault Refusal :=
  .next <|
    match (s.link i).sending with
    | none => s
    | some m =>
      let sent := s.onLink i fun l => { l with
        sending := none
        deferred := if m.place = .deferred then l.deferred.filter fun e => e.tag ≠ m.tag else l.deferred }
      (if m.place = .general ∧ m.kind = replyKind RequestKind.goodbye.code then
        sent.linkReset i (rxdLow || (s.link i).rx.state = .low)
      else sent).finish

/-! ### Timers -/

/-- DORMANCY_TIMER_EXPIRY (R131); nothing if the timer does not run. -/
def execDormancyTimerExpiry (i : LinkId) (s : State) : Host.Outcome State Fault Refusal :=
  .next (s.goDormant i).finish

/-- SLOT_IDLE_TIMER_EXPIRY (R172); nothing if the timer does not run. -/
def execSlotIdleTimerExpiry (i : LinkId) (slot : SlotId) (s : State) : Host.Outcome State Fault Refusal :=
  .next (s.expireSlot (i, slot)).finish

/-- WAIT_FREE_TIMER_EXPIRY (R42), of the waiter with this link and tag; nothing if there is none. -/
def execWaitFreeTimerExpiry (i : LinkId) (tag : Byte) (s : State) : Host.Outcome State Fault Refusal :=
  .next (s.expireWaiter i tag).finish

/-- WALK_TIMER_EXPIRY (R95): a visit falls due, and is made at once if the engine is idle and no CHECK waits (R94).
Nothing if the timer does not run. -/
def execWalkTimerExpiry (s : State) : Host.Outcome State Fault Refusal :=
  .next <|
    if s.scrub.walkTimer = .running then
      (State.takeWork { s with scrub := { s.scrub with walkTimer := .due } }).finish
    else s

/-! ### Completions -/

/-- The access in progress ends: the store is idle until the arbiter's next grant (R10). -/
def State.endAccess (s : State) : State := { s with arbiter := { s.arbiter with current := none } }

/-- CLEAR_COMPLETION (R27); nothing if no clear is in progress. -/
def execClearCompletion (s : State) : Host.Outcome State Fault Refusal :=
  .next <|
    match s.arbiter.current with
    | some (.clear f) => (s.endAccess.completeClear f).finish
    | _ => s

/-- COPY_COMPLETION (R76); nothing if no copy is in progress. -/
def execCopyCompletion (s : State) : Host.Outcome State Fault Refusal :=
  .next <|
    match s.arbiter.current with
    | some (.copy _ _ errors) => (s.endAccess.completeCopy errors).finish
    | _ => s

/-- CHECK_COMPLETION (R98); nothing if no check is in progress. -/
def execCheckCompletion (s : State) : Host.Outcome State Fault Refusal :=
  .next <|
    match s.arbiter.current with
    | some (.check _ errors) => (s.endAccess.completeCheck errors).finish
    | _ => s

/-! ### The array -/

/-- STORAGE_FAULT (R1): one stored bit of a word changes. -/
def execStorageFault (f : FrameId) (w : WordId) (b : BitId) (s : State) : Host.Outcome State Fault Refusal :=
  .next { s with memory := s.memory.strike f w b }

end Sys2Proof.Machine
end

