-- ==== Sys2Proof/Machine/Receiver.lean ====
section
/-! DEFINITION. The receiver's rows (chapter 6): bytes, discards, framing faults and breaks. -/

namespace Sys2Proof.Machine

/-! ### Taking a byte (R118) -/

/-- What a byte makes of the receiver: it goes on; the link frame is discarded for its LEN or its CHECK; or a sound
message is complete. -/
inductive RxResult where
  | keep (rx : Receiver)
  | lenDiscard (rx : Receiver)
  | checkDiscard (rx : Receiver)
  | sound (m : Message)
  deriving DecidableEq, Repr

/-- The receiver that has begun a link frame and taken the first of its bytes after SYNC, fewer than three (R118). -/
def Receiver.begun (kept : List Byte) : Receiver :=
  { state := .header, kept, crc := crcBytes 0xFFFF kept, gapTimer := .running, lowTimer := .stopped, cut := false }

/-- The KIND, TAG and LEN of a discarded link frame examined again as HUNT bytes (R119). -/
def rescan : List Byte → Receiver
  | [] => .hunting
  | b :: rest => if b = syncByte then .begun rest else rescan rest

/-- The LEN of the link frame in progress. -/
def Receiver.len (rx : Receiver) : Nat := (rx.kept.getD 2 0).toNat

/-- A byte taken by the receiver's state (R118, R119, R121). -/
def Receiver.takeByte (rx : Receiver) (b : Byte) : RxResult :=
  let kept := rx.kept ++ [b]
  let crc := crcByte rx.crc b
  let next := fun (st : RxState) =>
    RxResult.keep { rx with state := st, kept := kept, crc := crc, gapTimer := .running }
  match rx.state with
  | .hunt => if b = syncByte then .keep (.begun []) else .keep rx
  | .header =>
    if kept.length < 3 then next .header
    else if 72 < b.toNat then .lenDiscard (rescan kept)
    else if b = 0 then next .check
    else next .payload
  | .payload => if kept.length < 3 + rx.len then next .payload else next .check
  | .check =>
    if kept.length < 5 + rx.len then next .check
    else if crc = 0 then
      .sound { kind := kept.getD 0 0, tag := kept.getD 1 0, payload := (kept.drop 3).take rx.len }
    else .checkDiscard .hunting
  | .low => .keep rx

/-- A link frame discarded and counted (R123), leaving the receiver given. -/
def State.discardFrame (s : State) (i : LinkId) (rx : Receiver) : State :=
  s.onLink i fun l => { l with rx := rx }.countDiscard

/-- BYTE_RECEIVED (R118): the byte that ends a link frame has the effect of the row that names that end (log 7). -/
def execByteReceived (i : LinkId) (b : Byte) (s : State) : Host.Outcome State Fault Refusal :=
  .next <|
    if s.receiving i then
      match (s.link i).rx.takeByte b with
      | .keep rx => s.onLink i fun l => { l with rx := rx }
      | .lenDiscard rx => s.discardFrame i rx
      | .checkDiscard rx => s.discardFrame i rx
      | .sound m => s.handOver i m
    else s

/-- LINK_FRAME_LEN_DISCARD (R119): the LEN byte is taken and is above 72. -/
def execLinkFrameLenDiscard (i : LinkId) (len : Byte) (s : State) : Host.Outcome State Fault Refusal :=
  .next <|
    if s.receiving i then
      match (s.link i).rx.takeByte len with
      | .lenDiscard rx => s.discardFrame i rx
      | _ => s
    else s

/-- LINK_FRAME_CHECK_DISCARD (R121): the second CHECK byte is taken and the register is not 0. -/
def execLinkFrameCheckDiscard (i : LinkId) (lastByte : Byte) (s : State) : Host.Outcome State Fault Refusal :=
  .next <|
    if s.receiving i then
      match (s.link i).rx.takeByte lastByte with
      | .checkDiscard rx => s.discardFrame i rx
      | _ => s
    else s

/-- GENERAL_PLACES_FULL_DISCARD (R124): a sound message finds all 8 general places occupied. -/
def execGeneralPlacesFullDiscard (i : LinkId) (s : State) : Host.Outcome State Fault Refusal :=
  .next <|
    if s.receiving i ∧ 8 ≤ (s.link i).generalOccupied then s.discardFrame i .hunting else s

/-- INTER_BYTE_GAP_EXPIRY (R120); nothing if the timer does not run. -/
def execInterByteGapExpiry (i : LinkId) (s : State) : Host.Outcome State Fault Refusal :=
  .next <|
    if s.receiving i ∧ (s.link i).rx.gapTimer = .running then s.discardFrame i .hunting else s

/-! ### The line low (R122) -/

/-- Whether a link frame is in progress. -/
def Receiver.inFrame (rx : Receiver) : Bool :=
  rx.state = .header || rx.state = .payload || rx.state = .check

/-- STOP_BIT_LOW (R122): the receiver enters LOW and its line-low timer starts. -/
def execStopBitLow (i : LinkId) (s : State) : Host.Outcome State Fault Refusal :=
  .next <|
    if s.receiving i then
      s.onLink i fun l => { l with rx := { l.rx with
        state := .low, gapTimer := .stopped, lowTimer := .running, cut := l.rx.inFrame } }
    else s

/-- RXD_RETURNS_HIGH (R122): before 2 ms a framing fault, which discards and counts a link frame in progress; after a
break nothing is counted. Nothing if the receiver is not in LOW. -/
def execRxdReturnsHigh (i : LinkId) (s : State) : Host.Outcome State Fault Refusal :=
  .next <|
    if s.resetLow ∨ (s.link i).rx.state ≠ .low then s
    else if (s.link i).rx.lowTimer = .running ∧ (s.link i).rx.cut then s.discardFrame i .hunting
    else s.onLink i fun l => { l with rx := .hunting }

/-- BREAK (R122, R133): the line-low timer reaches 2 ms; a link reset leaves the link DOWN and the receiver in LOW, no
further break being detected there. Nothing if the timer does not run. -/
def execLineBreak (i : LinkId) (s : State) : Host.Outcome State Fault Refusal :=
  .next <|
    if s.resetLow = false ∧ (s.link i).rx.state = .low ∧ (s.link i).rx.lowTimer = .running then
      ((s.linkReset i true).onLink i fun l => { l with rx := { l.rx with lowTimer := .stopped } }).finish
    else s

end Sys2Proof.Machine
end

