-- ==== Sys2Proof/Machine/Requests.lean ====
section
/-! DEFINITION. The message rows: each is a link frame of its KIND received whole and sound (R118). What the message does
is its `serve…` definition, reached through hand-over and intake. -/

namespace Sys2Proof.Machine

/-- A message row of a request kind. -/
def State.request (s : State) (i : LinkId) (kind : RequestKind) (tag : Byte) (payload : List Byte) : State :=
  s.receive i { kind := kind.code, tag, payload }

/-- A CONFIG row that sets an item: the item byte has the query flag clear (R145). -/
def State.configure (s : State) (i : LinkId) (tag : Byte) (item : ConfigItem) (value : List Byte) : State :=
  s.request i .config tag (u8 item.code :: value)

/-- BAD_KIND_MESSAGE (R137): a message whose KIND is no request kind. -/
def execBadKindMessage (i : LinkId) (kind tag : Byte) (payload : List Byte) (s : State) :
    Host.Outcome State Fault Refusal := .next (s.receive i { kind, tag, payload })

/-- HELLO (R128, R129); see `serveHello`. -/
def execHello (i : LinkId) (tag : Byte) (payload : List Byte) (s : State) : Host.Outcome State Fault Refusal :=
  .next (s.request i .hello tag payload)

/-- GOODBYE (R130); see `serveGoodbye`. -/
def execGoodbye (i : LinkId) (tag : Byte) (payload : List Byte) (s : State) : Host.Outcome State Fault Refusal :=
  .next (s.request i .goodbye tag payload)

/-- WAKE (R132); see `serveWake`. -/
def execWake (i : LinkId) (tag : Byte) (payload : List Byte) (s : State) : Host.Outcome State Fault Refusal :=
  .next (s.request i .wake tag payload)

/-- CONFIG of the notice mask (R146, R183); see `serveConfig`. -/
def execConfigNoticeMask (i : LinkId) (tag : Byte) (value : List Byte) (s : State) :
    Host.Outcome State Fault Refusal := .next (s.configure i tag .noticeMask value)

/-- CONFIG of the dormancy interval (R131, R146); see `serveConfig`. -/
def execConfigDormancyInterval (i : LinkId) (tag : Byte) (value : List Byte) (s : State) :
    Host.Outcome State Fault Refusal := .next (s.configure i tag .dormancyInterval value)

/-- CONFIG of the slot timeout (R146, R170); see `serveConfig`. -/
def execConfigSlotTimeout (i : LinkId) (tag : Byte) (value : List Byte) (s : State) :
    Host.Outcome State Fault Refusal := .next (s.configure i tag .slotTimeout value)

/-- CONFIG of the scrub interval (R95); see `serveConfig`. -/
def execConfigScrubInterval (i : LinkId) (tag : Byte) (value : List Byte) (s : State) :
    Host.Outcome State Fault Refusal := .next (s.configure i tag .scrubInterval value)

/-- CONFIG of the retire threshold (R102); see `serveConfig`. -/
def execConfigRetireThreshold (i : LinkId) (tag : Byte) (value : List Byte) (s : State) :
    Host.Outcome State Fault Refusal := .next (s.configure i tag .retireThreshold value)

/-- CONFIG of the low mark (R38); see `serveConfig`. -/
def execConfigLowMark (i : LinkId) (tag : Byte) (value : List Byte) (s : State) :
    Host.Outcome State Fault Refusal := .next (s.configure i tag .lowMark value)

/-- CONFIG with the query flag, bit 7 of the item byte, set (R145); see `serveConfig`. -/
def execConfigQuery (i : LinkId) (tag : Byte) (item : BitVec 7) (value : List Byte) (s : State) :
    Host.Outcome State Fault Refusal := .next (s.request i .config tag ((0x80 ||| item.setWidth 8) :: value))

/-- LINK_STATUS (R147); see `serveLinkStatus`. -/
def execLinkStatus (i : LinkId) (tag : Byte) (payload : List Byte) (s : State) : Host.Outcome State Fault Refusal :=
  .next (s.request i .linkStatus tag payload)

/-- PART_STATUS (R148); see `servePartStatus`. -/
def execPartStatus (i : LinkId) (tag : Byte) (payload : List Byte) (s : State) : Host.Outcome State Fault Refusal :=
  .next (s.request i .partStatus tag payload)

/-- SPACE_CREATE (R51); see `serveSpaceCreate`. -/
def execSpaceCreate (i : LinkId) (tag : Byte) (payload : List Byte) (s : State) : Host.Outcome State Fault Refusal :=
  .next (s.request i .spaceCreate tag payload)

/-- SPACE_DESTROY (R52–R54); see `serveSpaceDestroy`. -/
def execSpaceDestroy (i : LinkId) (tag : Byte) (payload : List Byte) (s : State) : Host.Outcome State Fault Refusal :=
  .next (s.request i .spaceDestroy tag payload)

/-- SPACE_GRANT (R55); see `serveSpaceGrant`. -/
def execSpaceGrant (i : LinkId) (tag : Byte) (payload : List Byte) (s : State) : Host.Outcome State Fault Refusal :=
  .next (s.request i .spaceGrant tag payload)

/-- SPACE_INFO (R56); see `serveSpaceInfo`. -/
def execSpaceInfo (i : LinkId) (tag : Byte) (payload : List Byte) (s : State) : Host.Outcome State Fault Refusal :=
  .next (s.request i .spaceInfo tag payload)

/-- MAP (R57, R58); see `serveMap`. -/
def execMap (i : LinkId) (tag : Byte) (payload : List Byte) (s : State) : Host.Outcome State Fault Refusal :=
  .next (s.request i .map tag payload)

/-- UNMAP (R59, R60); see `serveUnmap`. -/
def execUnmap (i : LinkId) (tag : Byte) (payload : List Byte) (s : State) : Host.Outcome State Fault Refusal :=
  .next (s.request i .unmap tag payload)

/-- PROTECT (R61); see `serveProtect`. -/
def execProtect (i : LinkId) (tag : Byte) (payload : List Byte) (s : State) : Host.Outcome State Fault Refusal :=
  .next (s.request i .protect tag payload)

/-- CLONE (R70–R72); see `serveClone`. -/
def execClone (i : LinkId) (tag : Byte) (payload : List Byte) (s : State) : Host.Outcome State Fault Refusal :=
  .next (s.request i .clone tag payload)

/-- USAGE (R62, R63); see `serveUsage`. -/
def execUsage (i : LinkId) (tag : Byte) (payload : List Byte) (s : State) : Host.Outcome State Fault Refusal :=
  .next (s.request i .usage tag payload)

/-- OPEN (R153, R154); see `serveOpen`. -/
def execOpenSlot (i : LinkId) (tag : Byte) (payload : List Byte) (s : State) : Host.Outcome State Fault Refusal :=
  .next (s.request i .openSlot tag payload)

/-- SEG (R155–R168); see `serveSeg` and `State.grantSegment`. -/
def execSeg (i : LinkId) (tag : Byte) (payload : List Byte) (s : State) : Host.Outcome State Fault Refusal :=
  .next (s.request i .seg tag payload)

/-- CLOSE (R169); see `serveClose`. -/
def execCloseSlot (i : LinkId) (tag : Byte) (payload : List Byte) (s : State) : Host.Outcome State Fault Refusal :=
  .next (s.request i .closeSlot tag payload)

/-- SLOT_INFO (R176); see `serveSlotInfo`. -/
def execSlotInfo (i : LinkId) (tag : Byte) (payload : List Byte) (s : State) : Host.Outcome State Fault Refusal :=
  .next (s.request i .slotInfo tag payload)

/-- FRAME_INFO (R23); see `serveFrameInfo`. -/
def execFrameInfo (i : LinkId) (tag : Byte) (payload : List Byte) (s : State) : Host.Outcome State Fault Refusal :=
  .next (s.request i .frameInfo tag payload)

/-- RETIRE (R109–R112); see `serveRetire`. -/
def execRetire (i : LinkId) (tag : Byte) (payload : List Byte) (s : State) : Host.Outcome State Fault Refusal :=
  .next (s.request i .retire tag payload)

/-- CHECK (R106, R107); see `serveCheck`. -/
def execCheck (i : LinkId) (tag : Byte) (payload : List Byte) (s : State) : Host.Outcome State Fault Refusal :=
  .next (s.request i .check tag payload)

/-- WAIT_FREE (R40, R41); see `serveWaitFree`. -/
def execWaitFree (i : LinkId) (tag : Byte) (payload : List Byte) (s : State) : Host.Outcome State Fault Refusal :=
  .next (s.request i .waitFree tag payload)

end Sys2Proof.Machine
end

