-- ==== Sys2Proof/Machine/Dispatch.lean ====
section
/-! DEFINITION. The meaning of every command, one arm for each. -/

namespace Sys2Proof.Machine

/-- The effect of a command on everything but the queue. -/
def exec (i : Instr) (s : State) : Host.Outcome State Fault Refusal :=
  match i with
  | .powerOn pins0 pins1 => Sys2Proof.Machine.execPowerOn pins0 pins1 s
  | .resetN => Sys2Proof.Machine.execResetN s
  | .resetNRelease pins0 pins1 => Sys2Proof.Machine.execResetNRelease pins0 pins1 s
  | .rxdReturnsHigh link => Sys2Proof.Machine.execRxdReturnsHigh link s
  | .lineBreak link => Sys2Proof.Machine.execLineBreak link s
  | .interByteGapExpiry link => Sys2Proof.Machine.execInterByteGapExpiry link s
  | .linkFrameLenDiscard link len => Sys2Proof.Machine.execLinkFrameLenDiscard link len s
  | .linkFrameCheckDiscard link lastByte => Sys2Proof.Machine.execLinkFrameCheckDiscard link lastByte s
  | .generalPlacesFullDiscard link => Sys2Proof.Machine.execGeneralPlacesFullDiscard link s
  | .badKindMessage link kind tag payload => Sys2Proof.Machine.execBadKindMessage link kind tag payload s
  | .hello link tag payload => Sys2Proof.Machine.execHello link tag payload s
  | .goodbye link tag payload => Sys2Proof.Machine.execGoodbye link tag payload s
  | .wake link tag payload => Sys2Proof.Machine.execWake link tag payload s
  | .configNoticeMask link tag value => Sys2Proof.Machine.execConfigNoticeMask link tag value s
  | .configDormancyInterval link tag value => Sys2Proof.Machine.execConfigDormancyInterval link tag value s
  | .configSlotTimeout link tag value => Sys2Proof.Machine.execConfigSlotTimeout link tag value s
  | .configScrubInterval link tag value => Sys2Proof.Machine.execConfigScrubInterval link tag value s
  | .configRetireThreshold link tag value => Sys2Proof.Machine.execConfigRetireThreshold link tag value s
  | .configLowMark link tag value => Sys2Proof.Machine.execConfigLowMark link tag value s
  | .configQuery link tag item value => Sys2Proof.Machine.execConfigQuery link tag item value s
  | .linkStatus link tag payload => Sys2Proof.Machine.execLinkStatus link tag payload s
  | .partStatus link tag payload => Sys2Proof.Machine.execPartStatus link tag payload s
  | .spaceCreate link tag payload => Sys2Proof.Machine.execSpaceCreate link tag payload s
  | .spaceDestroy link tag payload => Sys2Proof.Machine.execSpaceDestroy link tag payload s
  | .spaceGrant link tag payload => Sys2Proof.Machine.execSpaceGrant link tag payload s
  | .spaceInfo link tag payload => Sys2Proof.Machine.execSpaceInfo link tag payload s
  | .map link tag payload => Sys2Proof.Machine.execMap link tag payload s
  | .unmap link tag payload => Sys2Proof.Machine.execUnmap link tag payload s
  | .protect link tag payload => Sys2Proof.Machine.execProtect link tag payload s
  | .clone link tag payload => Sys2Proof.Machine.execClone link tag payload s
  | .usage link tag payload => Sys2Proof.Machine.execUsage link tag payload s
  | .openSlot link tag payload => Sys2Proof.Machine.execOpenSlot link tag payload s
  | .seg link tag payload => Sys2Proof.Machine.execSeg link tag payload s
  | .closeSlot link tag payload => Sys2Proof.Machine.execCloseSlot link tag payload s
  | .slotInfo link tag payload => Sys2Proof.Machine.execSlotInfo link tag payload s
  | .frameInfo link tag payload => Sys2Proof.Machine.execFrameInfo link tag payload s
  | .retire link tag payload => Sys2Proof.Machine.execRetire link tag payload s
  | .check link tag payload => Sys2Proof.Machine.execCheck link tag payload s
  | .waitFree link tag payload => Sys2Proof.Machine.execWaitFree link tag payload s
  | .messageSent link rxdLow => Sys2Proof.Machine.execMessageSent link rxdLow s
  | .dormancyTimerExpiry link => Sys2Proof.Machine.execDormancyTimerExpiry link s
  | .slotIdleTimerExpiry link slot => Sys2Proof.Machine.execSlotIdleTimerExpiry link slot s
  | .waitFreeTimerExpiry link tag => Sys2Proof.Machine.execWaitFreeTimerExpiry link tag s
  | .walkTimerExpiry => Sys2Proof.Machine.execWalkTimerExpiry s
  | .clearCompletion => Sys2Proof.Machine.execClearCompletion s
  | .copyCompletion => Sys2Proof.Machine.execCopyCompletion s
  | .checkCompletion => Sys2Proof.Machine.execCheckCompletion s
  | .storageFault frame word bit => Sys2Proof.Machine.execStorageFault frame word bit s
  | .byteReceived link byte => Sys2Proof.Machine.execByteReceived link byte s
  | .stopBitLow link => Sys2Proof.Machine.execStopBitLow link s

end Sys2Proof.Machine
end

