-- ==== Sys2Proof/Safety.lean ====
section
/-! DEFINITION. The terms the claims use: the states between two commands, the invariants of the part, the message a row
stands for, and the intake table of chapter 7 written from the code tables alone. -/

namespace Sys2Proof.Machine

/-! ### Between two commands -/

/-- A state in which the last event has ended: each link's transmitter, dormancy timer and ATTN stand by their rules
(R125, R131, R184, R187), the store is not idle while an access waits (R10), no link leaves a message untaken that it
could take (R136), a block with work has it in hand (R26, R76), and the check engine is idle only with no work to take
(R94). -/
structure State.Stable (s : State) : Prop where
  settled : ∀ i, (s.link i).settle = s.link i
  store : s.arbiter.current.isSome = true ∨ s.arbiter.waiting = []
  taken : ∀ i, (s.link i).canTake = false
  clearer : s.clearQueue = [] ∨ s.arbiter.clearing = true ∨ Client.clearer ∈ s.arbiter.waiting
  copier : s.jobs = [] ∨ (∃ a b es, s.arbiter.current = some (.copy a b es)) ∨ Client.copyEngine ∈ s.arbiter.waiting
  checker : s.scrub.engine = .idle ∨ (∃ f es, s.arbiter.current = some (.check f es)) ∨
    Client.scrubber ∈ s.arbiter.waiting
  idleEngine : s.scrub.engine = .idle → s.scrub.checkQueue = [] ∧ s.scrub.walkTimer ≠ .due

/-- A link that can take a request with a tag and answer it at once: RESET_N and RXD are high, the link is UP, a
general place is free, no SEG is in processing, and the tag is not 0 and not in use (R122, R124, R136, R137). -/
structure State.Ready (s : State) (i : LinkId) (tag : Byte) : Prop where
  stable : s.Stable
  receiving : s.receiving i = true
  up : (s.link i).state = .up
  places : (s.link i).generalOccupied < 8
  free : (s.link i).segment = none
  tagged : tag ≠ 0
  fresh : ∀ e ∈ (s.link i).deferred, e.tag ≠ tag

/-- The receiver of a link back in HUNT, its link frame handed over (R118). -/
def State.heard (s : State) (i : LinkId) : State := s.onLink i fun l => { l with rx := Receiver.hunting }

/-- The reply to an immediate request in a general place, by the KIND code of the request (R139). -/
def State.answered (s : State) (i : LinkId) (kind tag : Byte) (payload : List Byte) : State :=
  s.enqueue i { kind := kind + 0x80, tag := tag, payload := payload, place := .general }

/-! ### The invariants of a link -/

/-- What holds of a link at every event (R124, R141, R150, R157, R159, R179). -/
structure Link.Lawful (l : Link) : Prop where
  deferredBound : l.deferred.length ≤ 4
  deferredDistinct : (l.deferred.map DeferredEntry.tag).Nodup
  deferredTagged : ∀ e ∈ l.deferred, e.tag ≠ 0
  downEmpty : l.state = .down → l.deferred = [] ∧ l.notices = [] ∧ ∀ k t, l.slots.get k ≠ .active t
  noticesDistinct : (l.notices.map Notice.classCode).Nodup
  placesBound : l.generalOccupied ≤ 8
  position : ∀ k t, l.slots.get k = .active t → t.position ≤ t.length
  inData : ∀ k t, l.slots.get k = .active t → t.phase = .data → t.position < t.length
  inFinal : ∀ k t, l.slots.get k = .active t → t.phase = .final → t.position = t.length ∧ t.last.isSome = true
  lastSegment : ∀ k t g, l.slots.get k = .active t → t.last = some g → g.toggle = !t.toggle ∧ g.position = t.position ∧
    (t.direction = .write → g.data = [])
  segment : ∀ g, l.segment = some g → ∃ t, l.slots.get g.slot = .active t ∧ t.phase = .data ∧ t.timer = .stopped ∧
    g.toggle = t.toggle ∧ 1 ≤ g.count ∧ g.count ≤ 64 ∧ g.count ≤ t.length - t.position

/-! ### The invariants of the part -/

/-- The entry a PRIVATE job names. -/
def CopyJob.entry? (j : CopyJob) : Option BackRef :=
  match j.kind with
  | .privateCopy p => some p
  | .move _ => none

/-- The source a MOVE job names. -/
def CopyJob.moves? (j : CopyJob) : Option FrameId :=
  match j.kind with
  | .privateCopy _ => none
  | .move _ => some j.source

/-- The records of frames, queues, map entries and copy jobs agree (R12, R13, R17, R25, R29, R47, R75, R79), a FREE frame
is not poisoned (R29, R57), and a copy or check in progress is that of the head job or of the check engine, with the
errors of the one frame it reads (R4, R76, R94). -/
structure State.Consistent (s : State) : Prop where
  clearNodup : s.clearQueue.Nodup
  freeNodup : s.freeQueue.Nodup
  retiredNodup : s.scrub.retired.Nodup
  clearing : ∀ f, f ∈ s.clearQueue ↔ (s.frame f).state = .clearing
  free : ∀ f, f ∈ s.freeQueue ↔ (s.frame f).state = .free
  retired : ∀ f, f ∈ s.scrub.retired ↔ (s.frame f).state = .retired
  target : ∀ f, f ∈ s.jobs.map CopyJob.target ↔ (s.frame f).state = .target
  targetNodup : (s.jobs.map CopyJob.target).Nodup
  entryListed : ∀ p e, s.entry p = some e → p ∈ (s.frame e.frame).state.refs
  listedEntry : ∀ f p, p ∈ (s.frame f).state.refs → ∃ e, s.entry p = some e ∧ e.frame = f
  listNodup : ∀ f, (s.frame f).state.refs.Nodup
  emptyMoving : ∀ f, (s.frame f).state = .held [] → (s.frame f).moving = true
  moving : ∀ f, (s.frame f).moving = true ↔ f ∈ s.jobs.filterMap CopyJob.moves?
  moveNodup : (s.jobs.filterMap CopyJob.moves?).Nodup
  movingHeld : ∀ f, (s.frame f).moving = true → (s.frame f).state.isHeld = true
  copyPending : ∀ p e, s.entry p = some e → (e.copyPending = true ↔ p ∈ s.jobs.filterMap CopyJob.entry?)
  privateNodup : (s.jobs.filterMap CopyJob.entry?).Nodup
  clearHead : ∀ f, s.arbiter.current = some (.clear f) → s.clearQueue.head? = some f
  freeSound : ∀ f, (s.frame f).state = .free → (s.frame f).poisoned = false
  copyHead : ∀ a b es, s.arbiter.current = some (.copy a b es) →
    (∃ j, s.jobs.head? = some j ∧ j.source = a ∧ j.target = b) ∧ ∀ e ∈ es, e.frame = a
  checkEngine : ∀ a es, s.arbiter.current = some (.check a es) →
    (∃ work, s.scrub.engine = .busy a work) ∧ ∀ e ∈ es, e.frame = a

/-- A frame that MAP can take reads zero (R29, R57): every byte of a FREE frame, and of the frame whose clear is in
progress, which its completion makes FREE (R27; the clear acts at its grant, log 11). -/
structure State.FreeReadsZero (s : State) : Prop where
  free : ∀ f o, (s.frame f).state = .free → o < 512 → s.memory.readByte f o = 0
  clearing : ∀ f o, s.arbiter.current = some (.clear f) → o < 512 → s.memory.readByte f o = 0

/-- The counts, sizes and settings of the part stay in their ranges: among them the size of a LIVE space, with no present
page at or above it, and the share count (R13, R14, R46, R75, R104, R144). -/
structure State.Bounded (s : State) : Prop where
  discretionary : s.scrub.discretionary ≤ 256
  jobs : s.jobs.length ≤ 8
  tally : ∀ f, (s.frame f).tally ≤ 15
  interval : s.scrub.interval ≤ 1000
  threshold : 1 ≤ s.scrub.threshold ∧ s.scrub.threshold ≤ 15
  lowMark : s.lowMark ≤ 4095
  size : ∀ sp r, s.space sp = some r → 1 ≤ r.size ∧ r.size ≤ 256
  pages : ∀ sp r, s.space sp = some r → ∀ p : PageId, r.size ≤ p.val → s.entry (sp, p) = none
  shares : ∀ f, (s.frame f).state.refs.length ≤ 64

/-! ### Messages -/

/-- The link and the link frame that a message row stands for (R118, Table 10-1). -/
def messageOf : Instr → Option (LinkId × Message)
  | .badKindMessage i kind tag p => some (i, ⟨kind, tag, p⟩)
  | .hello i tag p => some (i, ⟨0x01, tag, p⟩)
  | .goodbye i tag p => some (i, ⟨0x02, tag, p⟩)
  | .wake i tag p => some (i, ⟨0x03, tag, p⟩)
  | .configNoticeMask i tag v => some (i, ⟨0x04, tag, 1 :: v⟩)
  | .configDormancyInterval i tag v => some (i, ⟨0x04, tag, 2 :: v⟩)
  | .configSlotTimeout i tag v => some (i, ⟨0x04, tag, 3 :: v⟩)
  | .configScrubInterval i tag v => some (i, ⟨0x04, tag, 4 :: v⟩)
  | .configRetireThreshold i tag v => some (i, ⟨0x04, tag, 5 :: v⟩)
  | .configLowMark i tag v => some (i, ⟨0x04, tag, 6 :: v⟩)
  | .configQuery i tag item v => some (i, ⟨0x04, tag, (0x80 ||| item.setWidth 8) :: v⟩)
  | .linkStatus i tag p => some (i, ⟨0x05, tag, p⟩)
  | .partStatus i tag p => some (i, ⟨0x06, tag, p⟩)
  | .spaceCreate i tag p => some (i, ⟨0x10, tag, p⟩)
  | .spaceDestroy i tag p => some (i, ⟨0x11, tag, p⟩)
  | .spaceGrant i tag p => some (i, ⟨0x12, tag, p⟩)
  | .spaceInfo i tag p => some (i, ⟨0x13, tag, p⟩)
  | .map i tag p => some (i, ⟨0x14, tag, p⟩)
  | .unmap i tag p => some (i, ⟨0x15, tag, p⟩)
  | .protect i tag p => some (i, ⟨0x16, tag, p⟩)
  | .clone i tag p => some (i, ⟨0x17, tag, p⟩)
  | .usage i tag p => some (i, ⟨0x18, tag, p⟩)
  | .openSlot i tag p => some (i, ⟨0x20, tag, p⟩)
  | .seg i tag p => some (i, ⟨0x21, tag, p⟩)
  | .closeSlot i tag p => some (i, ⟨0x22, tag, p⟩)
  | .slotInfo i tag p => some (i, ⟨0x23, tag, p⟩)
  | .frameInfo i tag p => some (i, ⟨0x30, tag, p⟩)
  | .retire i tag p => some (i, ⟨0x31, tag, p⟩)
  | .check i tag p => some (i, ⟨0x32, tag, p⟩)
  | .waitFree i tag p => some (i, ⟨0x33, tag, p⟩)
  | .powerOn _ _ => none
  | .resetN => none
  | .resetNRelease _ _ => none
  | .rxdReturnsHigh _ => none
  | .lineBreak _ => none
  | .interByteGapExpiry _ => none
  | .linkFrameLenDiscard _ _ => none
  | .linkFrameCheckDiscard _ _ => none
  | .generalPlacesFullDiscard _ => none
  | .messageSent _ _ => none
  | .dormancyTimerExpiry _ => none
  | .slotIdleTimerExpiry _ _ => none
  | .waitFreeTimerExpiry _ _ => none
  | .walkTimerExpiry => none
  | .clearCompletion => none
  | .copyCompletion => none
  | .checkCompletion => none
  | .storageFault _ _ _ => none
  | .byteReceived _ _ => none
  | .stopBitLow _ => none

/-- The request KINDs with the least and the greatest LEN of each (Table 10-1). -/
def requestLengths : List (Byte × Nat × Nat) :=
  [(0x01, 1, 1), (0x02, 0, 0), (0x03, 0, 0), (0x04, 3, 3), (0x05, 1, 1), (0x06, 0, 0), (0x10, 2, 2), (0x11, 1, 1),
   (0x12, 2, 2), (0x13, 1, 1), (0x14, 5, 5), (0x15, 5, 5), (0x16, 6, 6), (0x17, 8, 8), (0x18, 6, 6), (0x20, 9, 9),
   (0x21, 3, 66), (0x22, 1, 1), (0x23, 1, 1), (0x30, 2, 2), (0x31, 2, 2), (0x32, 2, 2), (0x33, 4, 4)]

/-- The status code of the first intake check that refuses a message (Table 7-5), with the codes of Table 10-14. -/
def refusalCode? (l : Link) (m : Message) : Option Byte :=
  match requestLengths.find? fun row => row.1 = m.kind with
  | none => some 0x10
  | some (_, least, greatest) =>
    if m.payload.length < least ∨ greatest < m.payload.length then some 0x11
    else if m.tag = 0 then some 0x12
    else if m.tag ∈ l.deferred.map DeferredEntry.tag then some 0x13
    else if l.state = .down ∧ m.kind ≠ 0x01 then some 0x15
    else if (m.kind = 0x31 ∨ m.kind = 0x32 ∨ m.kind = 0x33) ∧ 4 ≤ l.deferred.length then some 0x14
    else none

/-- Commands run one after another. -/
def execAll : List Instr → State → Host.Outcome State Fault Refusal
  | [], s => .next s
  | c :: rest, s =>
    match exec c s with
    | .next t => execAll rest t
    | .fault f => .fault f
    | .refused r => .refused r

/-- A link with its receiver replaced. -/
def State.withRx (s : State) (i : LinkId) (rx : Receiver) : State := s.onLink i fun l => { l with rx := rx }

/-- A link frame thrown away: the receiver as given, and the count raised by one, holding at 65535 (R123). -/
def State.thrownAway (s : State) (i : LinkId) (rx : Receiver) : State :=
  s.onLink i fun l => { l with rx := rx, discarded := min (l.discarded + 1) 65535 }

/-! ### What the manual says a link reset leaves (Table 7-3), written field by field -/

/-- A receiver whose RXD is low at a reset (R122), or high (Table 6-6). -/
def resetReceiver (rxdLow : Bool) : Receiver :=
  { state := if rxdLow then .low else .hunt, kept := [], crc := 0xFFFF, gapTimer := .stopped,
    lowTimer := if rxdLow then .running else .stopped, cut := false }

/-- A DOWN link with every item at its reset value (Tables 6-6, 7-3, 7-7, 8-6). -/
def resetLink (rate : BitVec 2) (rx : Receiver) : Link :=
  { rate := rate, rx := rx, discarded := 0, sending := none, queue := [], state := .down, noticeMask := 0,
    dormancyInterval := 0, slotTimeout := 50, dormancyTimer := .stopped, deferred := [], awaiting := [],
    segment := none, slots := Vector.replicate 4 (.idle none), notices := [], attn := false }

/-- The part after a link reset, its receiver as given (R134, R135). -/
def State.unlinked (s : State) (i : LinkId) (rx : Receiver) : State :=
  State.setLink
    { s with
      arbiter := { s.arbiter with waiting := s.arbiter.waiting.filter fun c => c ≠ .dataPath i }
      waiters := s.waiters.filter fun w => w.link ≠ i
      jobs := s.jobs.map fun j =>
        { j with
          waiters := j.waiters.filter fun k => k.1 ≠ i
          kind := match j.kind with
            | .privateCopy p => .privateCopy p
            | .move r => .move (r.filter fun q => q.1 ≠ i) }
      scrub := { s.scrub with
        checkQueue := s.scrub.checkQueue.filter fun q => q.link ≠ i
        retireWait := s.scrub.retireWait.filter fun q => q.link ≠ i
        engine := match s.scrub.engine with
          | .busy f (.request j tag) => if j = i then .busy f .orphan else .busy f (.request j tag)
          | .busy f .walk => .busy f .walk
          | .busy f .orphan => .busy f .orphan
          | .idle => .idle } }
    i (resetLink (s.link i).rate rx)

/-! ### Deferred requests (R140) -/

/-- A deferred request answered in its own taking: its entry is ANSWERED and its reply in a deferred place. -/
def State.answeredDeferred (s : State) (i : LinkId) (kind : DeferredKind) (tag : Byte) (payload : List Byte) : State :=
  s.onLink i fun l => { l with
    deferred := l.deferred ++ [{ tag := tag, kind := kind, answered := true }]
    queue := l.queue ++ [{ kind := kind.code + 0x80, tag := tag, payload := payload, place := .deferred }] }

/-- A deferred request that waits in its block: its entry is PENDING. -/
def State.deferredPending (s : State) (i : LinkId) (kind : DeferredKind) (tag : Byte) : State :=
  s.onLink i fun l => { l with deferred := l.deferred ++ [{ tag := tag, kind := kind, answered := false }] }

/-! ### Rights and settings -/

/-- A link's right over a space as a rank: 3 for the owner, else 2, 1 or 0 for a guest right of WRITE, READ or NONE
(R49). READ needs rank 1, WRITE 2, ownership 3 (Table 3-3). -/
def SpaceRecord.rank (r : SpaceRecord) (i : LinkId) : Nat :=
  if r.owner = i then 3 else match r.guest with
    | .none => 0
    | .read => 1
    | .write => 2

/-- The status code of the first of the checks 1 to 3 of R50 that fails, for a request that needs a rank. -/
def State.spaceRefusal? (s : State) (i : LinkId) (id : Byte) (rank : Nat) : Option Byte :=
  if id = 0 ∨ 16 < id.toNat then some 0x17
  else match (List.finRange 16).find? fun sp => sp.val + 1 = id.toNat with
    | none => some 0x17
    | some sp => match s.space sp with
      | none => some 0x21
      | some r => if r.rank i < rank then some 0x22 else none

/-- A deferred request that waited in its block, answered: its entry becomes ANSWERED and its reply takes a deferred
place. -/
def State.repliedDeferred (s : State) (i : LinkId) (kind tag : Byte) (payload : List Byte) : State :=
  s.onLink i fun l => { l with
    deferred := l.deferred.map fun e => if e.tag = tag then { e with answered := true } else e
    queue := l.queue ++ [{ kind := kind + 0x80, tag := tag, payload := payload, place := .deferred }] }

/-- The pages `first` to `first + count - 1` of a space, ascending. -/
def rangePages (sp : SpaceId) (first count : Nat) : List BackRef :=
  ((List.finRange 256).filter fun p => first ≤ p.val ∧ p.val < first + count).map fun p => (sp, p)

/-- What a link has of a space that a request names and whose right it holds (R50): the space's record. -/
structure State.Holds (s : State) (i : LinkId) (id : Byte) (rank : Nat) (sp : SpaceId) (r : SpaceRecord) : Prop where
  named : id.toNat = sp.val + 1
  live : s.space sp = some r
  right : rank ≤ r.rank i

/-- The value in force of the setting with a code, for a link (Table 7-7). -/
def State.inForce (s : State) (i : LinkId) (code : Nat) : Option Nat :=
  match code with
  | 1 => some (s.link i).noticeMask.toNat
  | 2 => some (s.link i).dormancyInterval
  | 3 => some (s.link i).slotTimeout
  | 4 => some s.scrub.interval
  | 5 => some s.scrub.threshold
  | 6 => some s.lowMark
  | _ => none

/-- Whether a value is in the range of the setting with a code (Table 7-7; for the notice mask, R190 and R193). -/
def settingRange (code v : Nat) : Prop :=
  match code with
  | 1 => v < 256 ∧ v % 2 = 0
  | 2 => v ≤ 255
  | 3 => v ≤ 255
  | 4 => v ≤ 1000
  | 5 => 1 ≤ v ∧ v ≤ 15
  | 6 => v ≤ 4095
  | _ => False

/-- A slot with the idle timer of an open transfer changed. -/
def Slot.withTimer (k : Slot) (change : Timer → Timer) : Slot :=
  match k with
  | .active t => .active { t with timer := change t.timer }
  | .idle last => .idle last

/-- The status code of the first check of R153 that refuses an OPEN. -/
def State.openRefusal? (s : State) (i : LinkId) (slot direction id : Byte) (start length : Nat) : Option Byte :=
  if h : slot.toNat < 4 ∧ direction.toNat < 2 then
    match s.slot (i, ⟨slot.toNat, h.1⟩) with
    | .active _ => some 0x40
    | .idle _ =>
      match s.spaceRefusal? i id (if direction = 0 then 1 else 2) with
      | some code => some code
      | none =>
        match (List.finRange 16).find? fun sp => sp.val + 1 = id.toNat with
        | none => some 0x17
        | some sp =>
          match s.space sp with
          | none => some 0x21
          | some r =>
            if 131071 < start ∨ length = 0 ∨ 131072 < length ∨ r.size * 512 < start + length then some 0x17 else none
  else some 0x17

/-- The idle timer of a slot as an answered SEG starts it (R170), paused on a DORMANT link (R171). -/
def Link.freshTimer (l : Link) : Timer :=
  if l.slotTimeout = 0 then .stopped else match l.state with
    | .dormant => .paused
    | .up => .running
    | .down => .running

/-- A SEG answered for an open slot that becomes as given, with its idle timer started from zero. -/
def State.segAnswered (s : State) (i : LinkId) (tag : Byte) (k : SlotId) (t : Transfer) (code : Byte)
    (data : List Byte) : State :=
  (s.setSlot (i, k) (.active { t with timer := (s.link i).freshTimer })).answered i 0x21 tag
    ([code, BitVec.ofNat 8 k.val, if t.toggle then 1 else 0] ++ be24 t.position ++ data)

/-! ### A segment in the store (R5, R6) -/

/-- The parts of `count` bytes from an offset of a frame, which go on at byte 0 of a second frame beyond byte 511 (R5). -/
def segmentParts (first second : FrameId) (offset count : Nat) : List Part :=
  if offset + count ≤ 512 then [{ frame := first, offset := offset, count := count }]
  else [{ frame := first, offset := offset, count := 512 - offset },
        { frame := second, offset := 0, count := offset + count - 512 }]

/-- Whether word `w` of frame `g` holds a byte of the segment (R5). -/
def segmentTouches (first second : FrameId) (offset count : Nat) (g : FrameId) (w : WordId) : Prop :=
  (g = first ∧ offset < 8 * w.val + 8 ∧ 8 * w.val < offset + count) ∨ (g = second ∧ 512 + 8 * w.val < offset + count)

/-- Whether the segment names some but not all bytes of word `w` of frame `g` (R6). -/
def segmentMerges (first second : FrameId) (offset count : Nat) (g : FrameId) (w : WordId) : Prop :=
  (g = first ∧ offset < 8 * w.val + 8 ∧ 8 * w.val < offset + count ∧
    (8 * w.val < offset ∨ offset + count < 8 * w.val + 8)) ∨
  (g = second ∧ 512 + 8 * w.val < offset + count ∧ offset + count < 512 + 8 * w.val + 8)

/-! ### Frames leaving use (R28, R34, R35, R103) -/

/-- A frame RETIRED: it joins the retired list, the discretionary count rises if the retirement is discretionary, and
FRAME_RETIRED is raised on both links with the frame and the new total. -/
def State.outOfService (s : State) (f : FrameId) (discretionary : Bool) : State :=
  (State.setFrame
    { s with scrub := { s.scrub with
        retired := s.scrub.retired ++ [f]
        discretionary := s.scrub.discretionary + (if discretionary then 1 else 0) } } f
    { s.frame f with state := .retired, retirePending := false }).raiseBoth
      (.frameRetired f (s.scrub.retired.length + 1))

/-- A frame released: RETIRED if it is poisoned, else CLEARING at the tail of the clear queue, and the Clearer
presents a clear if it has none outstanding. -/
def State.letGo (s : State) (f : FrameId) : State :=
  if (s.frame f).poisoned then s.outOfService f false
  else
    State.setFrame
      { s with
        clearQueue := s.clearQueue ++ [f]
        arbiter :=
          if (match s.arbiter.current with
            | some (.clear _) => true
            | _ => Client.clearer ∈ s.arbiter.waiting) then s.arbiter
          else { s.arbiter with waiting := s.arbiter.waiting ++ [.clearer] } } f
      { s.frame f with state := .clearing }

/-- The free queue shortened, with the fall examined (R36): a NORMAL supply below the low mark becomes LOW, and
FRAME_SUPPLY is raised on both links with the free count. -/
def State.freeFalls (s : State) (queue : List FrameId) : State :=
  if s.supply = .normal ∧ queue.length < s.lowMark then
    State.raiseBoth { s with freeQueue := queue, supply := .low } (.frameSupply .low queue.length)
  else { s with freeQueue := queue }

/-- The requester of a MOVE job, if there is one, answered with a status, the frame, its state and the retired total. -/
def State.tellRequester (s : State) (requester : Option (LinkId × Byte)) (code : Byte) (f : FrameId) : State :=
  match requester with
  | none => s
  | some (i, tag) =>
    s.repliedDeferred i 0x31 tag ([code] ++ be16 f.val ++ [(s.frame f).state.code] ++ be16 s.scrub.retired.length)

end Sys2Proof.Machine
end

