-- ==== Sys2Proof/Certificates/Slice0/Obligations.lean ====
section
/-! DEFINITION. The statements for the provers, from the numbered rules of the manual. A statement that rests on a choice
of the model names its log entry in its docstring. -/

section

open Sys2Proof Sys2Proof.Machine

/-! ### The queue of commands -/

/-- One step runs the command in front of the queue on the rest (log 6). -/
def Obligations.StepRunsFrontCommand : Prop :=
  ∀ (c : Instr) (rest : List Instr) (s : State),
    step { s with pending := c :: rest } = exec c { s with pending := rest }

/-- No command adds to the queue of commands or removes from it (log 6). -/
def Obligations.ExecKeepsQueue : Prop :=
  ∀ (c : Instr) (s t : State), exec c s = .next t → t.pending = s.pending

/-! ### Invariants -/

/-- The reset state meets every invariant below. -/
def Obligations.ResetMeetsInvariants : Prop :=
  State.reset.Stable ∧ (∀ i, (State.reset.link i).Lawful) ∧ State.reset.memory.wf = true ∧ State.reset.Consistent ∧
    State.reset.FreeReadsZero ∧ State.reset.Bounded

/-- Every step leaves the part at rest: nothing waits that could go on, and the check engine is idle only with an empty
CHECK queue and no visit due (R10, R26, R76, R94, R125, R136, R184, R187; the order in which one step goes on is
log 8). -/
def Obligations.StepKeepsStable : Prop :=
  ∀ s t : State, s.Stable → step s = .next t → t.Stable

/-- Every step keeps what holds of each link (R124, R141, R150, R157, R159, R179). -/
def Obligations.StepKeepsLinksLawful : Prop :=
  ∀ s t : State, (∀ i, (s.link i).Lawful) → step s = .next t → ∀ i, (t.link i).Lawful

/-- Every step keeps the Frame Store's canonical form (the model's own, log 2). -/
def Obligations.StepKeepsMemoryForm : Prop :=
  ∀ s t : State, (∀ i, (s.link i).Lawful) → s.memory.wf = true → step s = .next t → t.memory.wf = true

/-- Every step keeps frame records, queues, map entries, copy jobs and the access in progress in agreement, and no FREE
frame poisoned (R4, R12, R13, R17, R25, R29, R47, R75, R79, R94); and, the links being lawful too, every FREE frame
reading zero (R27, R29, R57). -/
def Obligations.StepKeepsConsistent : Prop :=
  (∀ s t : State, s.Consistent → step s = .next t → t.Consistent) ∧
  ∀ s t : State, (∀ i, (s.link i).Lawful) → s.Consistent → s.FreeReadsZero → step s = .next t → t.FreeReadsZero

/-- Every step keeps the counts, sizes and settings of the part in their ranges: a LIVE space has 1 to 256 pages with no
entry at or above its size, and a share count is at most 64 (R13, R14, R46, R75, R104, R144). -/
def Obligations.StepKeepsBounded : Prop :=
  ∀ s t : State, s.Bounded → step s = .next t → t.Bounded

/-- The numbers of frames in the five states sum to 4096, and each is the length of the list that holds them (R12,
R29, R148). -/
def Obligations.FrameCountsSum : Prop :=
  ∀ s : State, s.Consistent →
    s.clearQueue.length + s.freeQueue.length + ((List.finRange 4096).countP fun f => (s.frame f).state.isHeld) +
      s.jobs.length + s.scrub.retired.length = 4096

/-! ### Resets -/

/-- POWER_ON sets every block to its power-on value and begins the clear of frame 0 (R24, R44, R69, R93, R114, R126,
R177, R179). The undefined data take the next index of free values (the model's own, log 2). -/
def Obligations.PowerOnSetsPart : Prop :=
  ∀ (s : State) (p0 p1 : LinkPins),
    exec (.powerOn p0 p1) s = .next
      { resetLow := false
        memory := { cells := [], damage := [],
                    undefinedSince := (Vector.replicate 4096 (some s.freeIndex)).set 0 none }
        arbiter := { current := some (.clear 0), waiting := [], lastServed := .clearer }
        frames := Vector.replicate 4096
          { state := .clearing, tally := 0, poisoned := false, retirePending := false, moving := false,
            lastError := none }
        clearQueue := List.finRange 4096
        freeQueue := []
        supply := .normal
        lowMark := 64
        waiters := []
        spaces := Vector.replicate 16 none
        jobs := []
        scrub := { cursor := 0, interval := 10, walkTimer := .running, threshold := 4, passCount := 0, retired := [],
                   discretionary := 0, engine := .idle, checkQueue := [], retireWait := [] }
        link0 := resetLink p0.rate (resetReceiver p0.rxdLow)
        link1 := resetLink p1.rate (resetReceiver p1.rxdLow)
        freeIndex := s.freeIndex + 1
        pending := s.pending }

/-- RESET_N resets the part but for the RETIRED frames, their bytes, the retired list, the discretionary count and the
bit rates, and begins the clear of the first frame that is not RETIRED (R11, R24, R44, R69, R93, R103, R104, R114,
R115, R126). -/
def Obligations.ResetNKeepsRetired : Prop :=
  ∀ s : State, ∃ t, exec .resetN s = .next t ∧ t.resetLow = true ∧
    (∀ f, t.frame f =
      if (s.frame f).state = .retired then { s.frame f with retirePending := false, moving := false }
      else { state := .clearing, tally := 0, poisoned := false, retirePending := false, moving := false,
             lastError := none }) ∧
    (∀ f o, (s.frame f).state = .retired → o < 512 → t.memory.readByte f o = s.memory.readByte f o) ∧
    (∀ f w, (s.frame f).state = .retired → t.memory.damageOf f w = s.memory.damageOf f w) ∧
    t.clearQueue = ((List.finRange 4096).filter fun f => (s.frame f).state ≠ .retired) ∧
    t.arbiter.waiting = [] ∧
    (match t.clearQueue with
      | [] => t.arbiter.current = none ∧ t.arbiter.lastServed = .scrubber
      | f :: _ => t.arbiter.current = some (.clear f) ∧ t.arbiter.lastServed = .clearer) ∧
    t.freeQueue = [] ∧ t.supply = .normal ∧ t.lowMark = 64 ∧ t.waiters = [] ∧ (∀ sp, t.space sp = none) ∧
    t.jobs = [] ∧
    t.scrub = { cursor := 0, interval := 10, walkTimer := .running, threshold := 4, passCount := 0,
                retired := s.scrub.retired, discretionary := s.scrub.discretionary, engine := .idle,
                checkQueue := [], retireWait := [] } ∧
    ∀ i, t.link i = resetLink (s.link i).rate (resetReceiver false)

/-- The release of RESET_N samples the straps and each RXD, and nothing else changes (R115, R122, R126). -/
def Obligations.ReleaseSamplesStraps : Prop :=
  ∀ (s : State) (p0 p1 : LinkPins), s.resetLow = true →
    exec (.resetNRelease p0 p1) s = .next
      { s with
        resetLow := false
        link0 := { s.link0 with rate := p0.rate, rx := resetReceiver p0.rxdLow }
        link1 := { s.link1 with rate := p1.rate, rx := resetReceiver p1.rxdLow } }

/-- A link reset by a break, which leaves the receiver in LOW with its timer stopped, and by the last byte of the
GOODBYE reply, with the receiver in LOW if RXD is low (the command carries its level, log 10): every item of the link
at its reset value, the link gone from every other block's lists, nothing else of the part or of the other link
changed (R122, R125, R130, R133, R134, R135). -/
def Obligations.LinkResetsClear : Prop :=
  (∀ (s : State) (i : LinkId), s.Stable → s.resetLow = false → (s.link i).rx.state = .low →
     (s.link i).rx.lowTimer = .running →
     exec (.lineBreak i) s = .next
       (s.unlinked i { state := .low, kept := [], crc := 0xFFFF, gapTimer := .stopped, lowTimer := .stopped,
                       cut := false })) ∧
  ∀ (s : State) (i : LinkId) (m : Outgoing) (rxdLow : Bool), s.Stable → (s.link i).sending = some m →
    m.kind = 0x82 → m.place = .general →
    exec (.messageSent i rxdLow) s = .next
      (s.unlinked i (resetReceiver (rxdLow || (s.link i).rx.state = .low)))

/-! ### Framing -/

/-- CHECK (R117): one bit shifts the register and combines 0x1021 if the bit shifted out differs from the data bit; a
byte is taken most significant bit first; a link frame carries the register, from 0xFFFF over KIND, TAG, LEN and
payload, high byte first; "123456789" gives 0x29B1; and the register ends at 0 exactly when the CHECK bytes match. -/
def Obligations.CheckCode : Prop :=
  (∀ (r : BitVec 16) (b : Bool), crcBit r b = (r <<< 1) ^^^ (if (r.getLsbD 15 ^^ b) = true then 0x1021 else 0)) ∧
  (∀ (r : BitVec 16) (b7 b6 b5 b4 b3 b2 b1 b0 : Bool) (b : Byte),
    [b.getLsbD 7, b.getLsbD 6, b.getLsbD 5, b.getLsbD 4, b.getLsbD 3, b.getLsbD 2, b.getLsbD 1, b.getLsbD 0] =
      [b7, b6, b5, b4, b3, b2, b1, b0] →
    crcByte r b = crcBit (crcBit (crcBit (crcBit (crcBit (crcBit (crcBit (crcBit r b7) b6) b5) b4) b3) b2) b1) b0) ∧
  (∀ m : Message, m.wire =
    0xC3 :: m.kind :: m.tag :: BitVec.ofNat 8 m.payload.length :: (m.payload ++
      [(crcBytes 0xFFFF (m.kind :: m.tag :: BitVec.ofNat 8 m.payload.length :: m.payload)).extractLsb' 8 8,
       (crcBytes 0xFFFF (m.kind :: m.tag :: BitVec.ofNat 8 m.payload.length :: m.payload)).extractLsb' 0 8])) ∧
  crcBytes 0xFFFF [0x31, 0x32, 0x33, 0x34, 0x35, 0x36, 0x37, 0x38, 0x39] = 0x29B1 ∧
  ∀ (bytes : List Byte) (high low : Byte),
    crcBytes 0xFFFF (bytes ++ [high, low]) = 0 ↔ high ++ low = crcBytes 0xFFFF bytes

/-- The bytes of a link frame, taken one by one by a receiver in HUNT, do what the row of the message does: no bit of
an encoding is dropped (R116, R117, R118). -/
def Obligations.WireCarriesMessage : Prop :=
  ∀ (s : State) (i : LinkId) (m : Message) (c : Instr), messageOf c = some (i, m) → m.payload.length ≤ 72 →
    s.receiving i = true → (s.link i).rx.state = .hunt →
    execAll (m.wire.map (.byteReceived i)) s = exec c s

/-- BYTE_RECEIVED by the receiver's state (R118): in HUNT only SYNC counts; in HEADER, PAYLOAD and CHECK the byte is
kept and taken into the register; the last byte of a sound link frame hands the message over. -/
def Obligations.ReceiverTakesByte : Prop :=
  ∀ (s : State) (i : LinkId) (b : Byte), s.receiving i = true →
    let rx := (s.link i).rx
    let keep := fun st : RxState =>
      s.withRx i { rx with state := st, kept := rx.kept ++ [b], crc := crcByte rx.crc b, gapTimer := .running }
    let len := (rx.kept.getD 2 0).toNat
    (rx.state = .hunt → exec (.byteReceived i b) s = .next
      (if b = 0xC3 then s.withRx i { state := .header, kept := [], crc := 0xFFFF, gapTimer := .running,
                                     lowTimer := .stopped, cut := false }
       else s)) ∧
    (rx.state = .header → rx.kept.length < 2 → exec (.byteReceived i b) s = .next (keep .header)) ∧
    (rx.state = .header → rx.kept.length = 2 → b.toNat ≤ 72 →
      exec (.byteReceived i b) s = .next (keep (if b = 0 then .check else .payload))) ∧
    (rx.state = .payload → rx.kept.length + 1 < 3 + len → exec (.byteReceived i b) s = .next (keep .payload)) ∧
    (rx.state = .payload → rx.kept.length + 1 = 3 + len → exec (.byteReceived i b) s = .next (keep .check)) ∧
    (rx.state = .check → rx.kept.length = 3 + len → exec (.byteReceived i b) s = .next (keep .check)) ∧
    (∀ c m, rx.state = .check → rx.kept.length = 4 + len → crcByte rx.crc b = 0 →
      m = { kind := rx.kept.getD 0 0, tag := rx.kept.getD 1 0, payload := (rx.kept.drop 3).take len } →
      messageOf c = some (i, m) → exec (.byteReceived i b) s = exec c s)

/-- The discards of a link frame, each counted (R119–R121, R123, R124): at a LEN above 72 its KIND, TAG and LEN are
examined again as HUNT bytes; at a register that is not 0 after the second CHECK byte, and at the expiry of the
inter-byte gap timer, nothing is; and a sound message that finds all 8 general places occupied gets no reply and
leaves the link's state, by its own row and by the row of every message. The discard rows are the model's second names
for ends of BYTE_RECEIVED (log 18). -/
def Obligations.DiscardsCounted : Prop :=
  (∀ (s : State) (i : LinkId), s.receiving i = true →
     (∀ kind tag len : Byte, (s.link i).rx.state = .header → (s.link i).rx.kept = [kind, tag] → 72 < len.toNat →
       let begun := fun kept : List Byte =>
         ({ state := .header, kept := kept, crc := crcBytes 0xFFFF kept, gapTimer := .running, lowTimer := .stopped,
            cut := false } : Receiver)
       let next := s.thrownAway i
         (if kind = 0xC3 then begun [tag, len] else if tag = 0xC3 then begun [len]
          else if len = 0xC3 then begun [] else resetReceiver false)
       exec (.linkFrameLenDiscard i len) s = .next next ∧ exec (.byteReceived i len) s = .next next) ∧
     (∀ b : Byte, (s.link i).rx.state = .check →
       (s.link i).rx.kept.length = 4 + ((s.link i).rx.kept.getD 2 0).toNat → crcByte (s.link i).rx.crc b ≠ 0 →
       exec (.linkFrameCheckDiscard i b) s = .next (s.thrownAway i (resetReceiver false)) ∧
       exec (.byteReceived i b) s = .next (s.thrownAway i (resetReceiver false))) ∧
     ((s.link i).rx.gapTimer = .running →
       exec (.interByteGapExpiry i) s = .next (s.thrownAway i (resetReceiver false)))) ∧
  ∀ (s : State) (i : LinkId), s.receiving i = true → 8 ≤ (s.link i).generalOccupied →
    exec (.generalPlacesFullDiscard i) s = .next (s.thrownAway i (resetReceiver false)) ∧
    ∀ c m, messageOf c = some (i, m) → exec c s = .next (s.thrownAway i (resetReceiver false))

/-- The line low (R122): STOP_BIT_LOW enters LOW and starts the line-low timer; RXD returning high before 2 ms throws
away and counts a link frame in progress, and counts nothing in HUNT; after a break it counts nothing. -/
def Obligations.LineLowFaults : Prop :=
  ∀ (s : State) (i : LinkId),
    (s.receiving i = true →
      exec (.stopBitLow i) s = .next (s.withRx i { (s.link i).rx with
        state := .low, gapTimer := .stopped, lowTimer := .running, cut := decide ((s.link i).rx.state ≠ .hunt) })) ∧
    (s.resetLow = false → (s.link i).rx.state = .low →
      exec (.rxdReturnsHigh i) s = .next
        (if (s.link i).rx.lowTimer = .running ∧ (s.link i).rx.cut = true then s.thrownAway i (resetReceiver false)
         else s.withRx i (resetReceiver false)))

/-! ### The end of an event on a link -/

/-- The transmitter and the lines at the end of an event (R125, R131, R184, R187): what is sent next, when the
dormancy timer runs, and when ATTN is asserted; nothing else of the link changes. -/
def Obligations.TransmitterAndLines : Prop :=
  ∀ l : Link,
    let t := l.settle
    t = { l with sending := t.sending, queue := t.queue, notices := t.notices, dormancyTimer := t.dormancyTimer,
                 attn := t.attn } ∧
    (l.sending ≠ none ∨ l.state = .dormant → t.sending = l.sending ∧ t.queue = l.queue ∧ t.notices = l.notices) ∧
    (∀ m rest, l.sending = none → l.state ≠ .dormant → l.queue = m :: rest →
      t.sending = some m ∧ t.queue = rest ∧ t.notices = l.notices) ∧
    (∀ before n after, l.sending = none → l.state = .up → l.queue = [] → l.notices = before ++ n :: after →
      (∀ p ∈ before, l.noticeMask.getLsbD p.classCode = true) → l.noticeMask.getLsbD n.classCode = false →
      t.sending = some { kind := 0x7F, tag := 0, payload := n.payload, place := .notice } ∧ t.queue = [] ∧
        t.notices = before ++ after) ∧
    (l.sending = none → l.queue = [] →
      (l.state ≠ .up ∨ ∀ n ∈ l.notices, l.noticeMask.getLsbD n.classCode = true) →
      t.sending = none ∧ t.queue = [] ∧ t.notices = l.notices) ∧
    t.dormancyTimer =
      (if l.state = .up ∧ l.dormancyInterval ≠ 0 ∧ t.sending = none then Timer.running else .stopped) ∧
    (t.attn = true ↔ l.state = .dormant ∧
      (t.queue ≠ [] ∨ ∃ n ∈ t.notices, l.noticeMask.getLsbD n.classCode = false))

/-- MESSAGE_SENT of any message but the GOODBYE reply: the message gives its place up, the table entry of a deferred
reply is removed, and the transmitter goes on (R124, R125, R140). -/
def Obligations.MessageSentFreesPlace : Prop :=
  ∀ (s : State) (i : LinkId) (m : Outgoing) (rxdLow : Bool), s.Stable → (s.link i).sending = some m →
    ¬(m.place = .general ∧ m.kind = 0x82) →
    exec (.messageSent i rxdLow) s = .next
      (s.onLink i fun l => { l with
        sending := none
        deferred := if m.place = .deferred then l.deferred.filter fun e => e.tag ≠ m.tag else l.deferred }).settle

/-- DORMANCY_TIMER_EXPIRY: the link becomes DORMANT, its running slot timers pause, and ATTN stays deasserted, for its
queue is empty and no unmasked notice is pending (R131, R171, R187). -/
def Obligations.DormancyExpiryPauses : Prop :=
  ∀ (s : State) (i : LinkId), s.Stable → (s.link i).dormancyTimer = .running →
    exec (.dormancyTimerExpiry i) s = .next
      (s.onLink i fun l => { l with
        state := .dormant
        dormancyTimer := .stopped
        attn := false
        slots := l.slots.map fun k => k.withTimer fun timer => if timer = .running then .paused else timer })

/-- SLOT_IDLE_TIMER_EXPIRY: the slot returns to IDLE with the last outcome EXPIRED and its position, leaves its waiter
set, and SLOT_EXPIRED is raised on its link alone; no reply is formed (R77, R152, R172). -/
def Obligations.SlotExpiryCloses : Prop :=
  ∀ (s : State) (i : LinkId) (k : SlotId) (t : Transfer), s.Stable → s.slot (i, k) = .active t → t.timer = .running →
    exec (.slotIdleTimerExpiry i k) s = .next
      ((State.setSlot
          { s with jobs := s.jobs.map fun j => { j with waiters := j.waiters.filter fun w => w ≠ (i, k) } } (i, k)
          (.idle (some { status := .expired, position := t.position }))).raiseOn i
        (.slotExpired (slotSet k))).settle

/-! ### Intake -/

/-- Intake (R137, R138): on a link that takes messages, the first check of Table 7-5 that fails refuses the message
with a REJECT that carries its KIND and the check's status code, with its TAG, or 255 for a TAG of 0; nothing else
changes. -/
def Obligations.IntakeRefuses : Prop :=
  ∀ (s : State) (i : LinkId) (c : Instr) (m : Message) (code : Byte), s.Stable → s.receiving i = true →
    (s.link i).state ≠ .dormant → (s.link i).generalOccupied < 8 → (s.link i).segment = none →
    messageOf c = some (i, m) → refusalCode? (s.link i) m = some code →
    exec c s = .next ((s.heard i).enqueue i
      { kind := 0x7E, tag := if m.tag = 0 then 255 else m.tag, payload := [m.kind, code], place := .general }).settle

/-- A message on a DORMANT link with a general place free has the effect it has on the link returned to UP, its paused
slot timers resumed (R132, R171). -/
def Obligations.DormantLinkWakes : Prop :=
  ∀ (s : State) (i : LinkId) (c : Instr) (m : Message), messageOf c = some (i, m) → s.receiving i = true →
    (s.link i).state = .dormant → (s.link i).generalOccupied < 8 →
    exec c s = exec c (s.onLink i fun l => { l with
      state := .up
      slots := l.slots.map fun k => k.withTimer fun timer => if timer = .paused then .running else timer })

/-- A message that arrives while a SEG of its link is in processing awaits intake behind those that await already, and
nothing else follows from it yet (R136). -/
def Obligations.MessageAwaitsSegment : Prop :=
  ∀ (s : State) (i : LinkId) (c : Instr) (m : Message), s.Stable → messageOf c = some (i, m) → s.receiving i = true →
    (s.link i).state ≠ .dormant → (s.link i).generalOccupied < 8 → (s.link i).segment ≠ none →
    exec c s = .next (s.onLink i fun l => { l with rx := resetReceiver false, awaiting := l.awaiting ++ [m] })

/-- The messages awaiting intake (R136): an event after which no link has one that it can take ends as an event does;
otherwise the oldest message of a link whose SEG is answered is taken, and that taking is an event of its own (log 8). -/
def Obligations.AwaitingMessagesTaken : Prop :=
  (∀ s : State, (∀ i, (s.endEvent.link i).canTake = false) → s.finish = s.endEvent) ∧
  ∀ (s : State) (i : LinkId) (m : Message) (rest : List Message) (rxdLow : Bool),
    (s.endEvent.link i).segment = none → (s.endEvent.link i).awaiting = m :: rest →
    (s.endEvent.link i.other).canTake = false → m.kind ≠ 0x01 →
    s.finish = (State.take
      (State.onLink { s.endEvent with freeIndex := s.endEvent.freeIndex + 1 } i fun l => { l with awaiting := rest })
      i m rxdLow).finish

/-! ### Sessions -/

/-- HELLO on a DOWN link (R128, R149): version 1 makes the link UP and is answered with the part's identity and the
retired count; another version is refused with VERSION on a DOWN and on an UP link, which keeps its state (R129).
HELLO of version 1 on an UP link makes a link reset first, RXD being high at the end of the HELLO's own last character
(log 10). GOODBYE and WAKE are answered OK, with no other effect in their taking (R130, R132). -/
def Obligations.SessionRequests : Prop :=
  (∀ (s : State) (i : LinkId) (tag version : Byte), s.Stable → s.receiving i = true → (s.link i).state ≠ .dormant →
     (s.link i).generalOccupied < 8 → (s.link i).segment = none → tag ≠ 0 → (∀ e ∈ (s.link i).deferred, e.tag ≠ tag) →
     (version = 1 → (s.link i).state = .down →
       exec (.hello i tag [version]) s = .next
         (((s.heard i).onLink i fun l => { l with state := .up }).answered i 0x01 tag
           ([0x00, 0x04, 0x16, 0x01, 0x10, 0x00, 0x02, 0x00, 0x10, 0x04] ++ be16 s.scrub.retired.length)).settle) ∧
     (version ≠ 1 →
       exec (.hello i tag [version]) s = .next
         ((s.heard i).enqueue i { kind := 0x7E, tag := tag, payload := [0x01, 0x16], place := .general }).settle)) ∧
  (∀ (s : State) (i : LinkId) (tag : Byte), s.Ready i tag →
     exec (.hello i tag [1]) s = .next
       (((s.unlinked i (resetReceiver false)).onLink i fun l => { l with state := .up }).answered i 0x01 tag
         ([0x00, 0x04, 0x16, 0x01, 0x10, 0x00, 0x02, 0x00, 0x10, 0x04] ++ be16 s.scrub.retired.length)).settle) ∧
  ∀ (s : State) (i : LinkId) (tag : Byte), s.Ready i tag →
    exec (.goodbye i tag []) s = .next ((s.heard i).answered i 0x02 tag [0x00]).settle ∧
    exec (.wake i tag []) s = .next ((s.heard i).answered i 0x03 tag [0x00]).settle

/-! ### Settings and status -/

/-- CONFIG of the six settings with a value in range (R38, R39, R95, R102, R144–R146): the setting takes the value; a
new slot timeout starts the timer of every open slot of the link, or stops it at 0; the scrub interval acts on the
walk timer; the low mark re-examines the supply state at once; and the reply carries OK, the item and the value. -/
def Obligations.SettingsSet : Prop :=
  (∀ (s : State) (i : LinkId) (tag high low : Byte), s.Ready i tag →
     (high = 0 → low.getLsbD 0 = false →
       exec (.configNoticeMask i tag [high, low]) s = .next
         (((s.heard i).onLink i fun l => { l with noticeMask := low }).answered i 0x04 tag
           [0x00, 0x01, high, low]).settle) ∧
     (high = 0 →
       exec (.configDormancyInterval i tag [high, low]) s = .next
         (((s.heard i).onLink i fun l => { l with dormancyInterval := low.toNat }).answered i 0x04 tag
           [0x00, 0x02, high, low]).settle) ∧
     (high = 0 →
       exec (.configSlotTimeout i tag [high, low]) s = .next
         (((s.heard i).onLink i fun l => { l with
             slotTimeout := low.toNat
             slots := l.slots.map fun k =>
               k.withTimer fun _ => if low = 0 then .stopped else .running }).answered i 0x04 tag
           [0x00, 0x03, high, low]).settle)) ∧
  ∀ (s : State) (i : LinkId) (tag high low : Byte), s.Ready i tag →
    let n := high.toNat * 256 + low.toNat
    (n ≤ 1000 →
      exec (.configScrubInterval i tag [high, low]) s = .next
        (State.answered
          { s.heard i with scrub := { s.scrub with
              interval := n
              walkTimer :=
                if n = 0 then .stopped
                else if s.scrub.walkTimer = .due then .due
                else match s.scrub.engine with
                  | .busy _ .walk => .stopped
                  | _ => .running } } i 0x04 tag [0x00, 0x04, high, low]).settle) ∧
    (1 ≤ n → n ≤ 15 →
      exec (.configRetireThreshold i tag [high, low]) s = .next
        (State.answered { s.heard i with scrub := { s.scrub with threshold := n } } i 0x04 tag
          [0x00, 0x05, high, low]).settle) ∧
    (n ≤ 4095 →
      let now : SupplyState := match s.supply with
        | .normal => if s.freeQueue.length < n then .low else .normal
        | .low => if n + 32 ≤ s.freeQueue.length then .normal else .low
      let marked : State := { s.heard i with lowMark := n, supply := now }
      exec (.configLowMark i tag [high, low]) s = .next
        ((if now = s.supply then marked else marked.raiseBoth (.frameSupply now s.freeQueue.length)).answered i 0x04 tag
          [0x00, 0x06, high, low]).settle)

/-- CONFIG queries and refusals (R145): an unknown item, a query with a value that is not 0 and a value out of range
are answered RANGE; a query is answered OK; each with the item and the value in force, 0 for an unknown item (R193).
Nothing changes. -/
def Obligations.ConfigQueriesAndRefusals : Prop :=
  ∀ (s : State) (i : LinkId) (tag item high low : Byte) (c : Instr), s.Ready i tag →
    messageOf c = some (i, ⟨0x04, tag, [item, high, low]⟩) →
    let value := high.toNat * 256 + low.toNat
    let answer := fun payload => exec c s = .next ((s.heard i).answered i 0x04 tag payload).settle
    match s.inForce i (item.toNat % 128) with
    | none => answer [0x17, item, 0, 0]
    | some v =>
      if 128 ≤ item.toNat then
        if value = 0 then answer ([0x00, item] ++ be16 v) else answer ([0x17, item] ++ be16 v)
      else ¬settingRange item.toNat value → answer ([0x17, item] ++ be16 v)

/-- LINK_STATUS (R147, Table 10-5): the report as it stands, then the discarded-message count set to 0 if the clear
flag is 1; another clear flag than 0 or 1 is answered RANGE with the rest of the reply 0, and nothing is cleared.
PART_STATUS (R148, Table 10-6): the five frame counts, the supply state, the discretionary count, the queue length,
the cursor, the pass count and the live spaces (log 21). -/
def Obligations.StatusReports : Prop :=
  (∀ (s : State) (i : LinkId) (tag clear pending : Byte), s.Ready i tag →
     (∀ c : Fin 8, pending.getLsbD c.val = (s.link i).notices.any fun n => n.classCode = c.val) →
     (clear.toNat < 2 →
       exec (.linkStatus i tag [clear]) s = .next
         (((s.heard i).onLink i fun l => { l with discarded := if clear = 1 then 0 else l.discarded }).answered i 0x05 tag
           ([0x00, 0x01] ++ be16 (s.link i).discarded ++
             [BitVec.ofNat 8 (s.link i).deferred.length,
              BitVec.ofNat 8 ((s.link i).deferred.countP fun e => e.answered = false)] ++
             ((List.finRange 4).map fun k => ((s.link i).slots.get k).code) ++ [pending, (s.link i).noticeMask])).settle) ∧
     (2 ≤ clear.toNat →
       exec (.linkStatus i tag [clear]) s = .next
         ((s.heard i).answered i 0x05 tag (0x17 :: List.replicate 11 0)).settle)) ∧
  ∀ (s : State) (i : LinkId) (tag : Byte), s.Ready i tag →
    exec (.partStatus i tag []) s = .next
      ((s.heard i).answered i 0x06 tag
        (0x00 :: be16 s.clearQueue.length ++ be16 s.freeQueue.length ++
          be16 ((List.finRange 4096).countP fun f => (s.frame f).state.isHeld) ++ [BitVec.ofNat 8 s.jobs.length] ++
          be16 s.scrub.retired.length ++ [if s.supply = .low then 1 else 0] ++ be16 s.scrub.discretionary ++
          [BitVec.ofNat 8 s.jobs.length] ++ be16 s.scrub.cursor.val ++
          [s.scrub.passCount.extractLsb' 8 8, s.scrub.passCount.extractLsb' 0 8] ++
          [BitVec.ofNat 8 ((List.finRange 16).countP fun sp => (s.space sp).isSome)])).settle

/-! ### Spaces -/

/-- SPACE_CREATE (R51): RANGE for a size of 0 or above 256; NO_SPACE with all sixteen spaces LIVE; else the
lowest-numbered ABSENT space becomes LIVE with its owner, no guest right and no present page, and the reply carries
its id and size. No notice is raised. -/
def Obligations.SpaceCreateTakesLowest : Prop :=
  ∀ (s : State) (i : LinkId) (tag high low : Byte), s.Ready i tag →
    let size := high.toNat * 256 + low.toNat
    (size = 0 ∨ 256 < size →
      exec (.spaceCreate i tag [high, low]) s = .next ((s.heard i).answered i 0x10 tag [0x17, 0, 0, 0]).settle) ∧
    (1 ≤ size → size ≤ 256 → (∀ sp, s.space sp ≠ none) →
      exec (.spaceCreate i tag [high, low]) s = .next ((s.heard i).answered i 0x10 tag [0x20, 0, 0, 0]).settle) ∧
    (∀ sp : SpaceId, 1 ≤ size → size ≤ 256 → s.space sp = none → (∀ tp : SpaceId, tp < sp → s.space tp ≠ none) →
      exec (.spaceCreate i tag [high, low]) s = .next
        (((s.heard i).setSpace sp
          (some { size := size, owner := i, guest := .none, pages := Vector.replicate 256 none })).answered i 0x10 tag
          [0x00, BitVec.ofNat 8 (sp.val + 1), high, low]).settle)

/-- SPACE_GRANT by the owner (R55): the guest right becomes the right given, SPACE_CHANGED is raised on the guest link
alone and only if the right differs, and the reply carries the right in force; a right above 2 is answered RANGE.
SPACE_INFO by a link that holds READ (R46, R48, R56): id, size, owner, guest right, present count and the number of
slots that count the space. -/
def Obligations.SpaceGrantAndInfo : Prop :=
  (∀ (s : State) (i : LinkId) (tag id right : Byte) (sp : SpaceId) (r : SpaceRecord), s.Ready i tag →
     s.Holds i id 3 sp r →
     (∀ g : Right, right = (match g with
         | .none => 0
         | .read => 1
         | .write => 2) →
       let granted := (s.heard i).setSpace sp (some { r with guest := g })
       exec (.spaceGrant i tag [id, right]) s = .next
         ((if g = r.guest then granted else granted.raiseOn i.other (.spaceChanged (spaceSet sp))).answered i 0x12 tag
           [0x00, id, right]).settle) ∧
     (2 < right.toNat →
       exec (.spaceGrant i tag [id, right]) s = .next ((s.heard i).answered i 0x12 tag [0x17, id, 0]).settle)) ∧
  ∀ (s : State) (i : LinkId) (tag id : Byte) (sp : SpaceId) (r : SpaceRecord), s.Ready i tag → s.Holds i id 1 sp r →
    let counts := fun j : LinkId => (List.finRange 4).countP fun k => match s.slot (j, k) with
      | .active t => t.counted && decide (t.space = sp)
      | .idle _ => false
    exec (.spaceInfo i tag [id]) s = .next
      ((s.heard i).answered i 0x13 tag
        ([0x00, id] ++ be16 r.size ++ [if r.owner = .link0 then 0 else 1, r.guest.code] ++
          be16 ((List.finRange 256).countP fun p => (s.entry (sp, p)).isSome) ++
          [BitVec.ofNat 8 (counts .link0 + counts .link1)])).settle

/-- SPACE_DESTROY by the owner (R52–R54): every slot of both links that counts the space is dealt with, then every
present page is detached in ascending order, then the space is ABSENT; SPACE_CHANGED is raised on the guest link if it
had a right; the reply carries the number of detaches that brought a share count to 0. What one slot and one detach
undergo is said by the last clause and by UnmapDetaches. -/
def Obligations.SpaceDestroyEndsSpace : Prop :=
  (∀ (s : State) (i : LinkId) (tag id : Byte) (sp : SpaceId) (r : SpaceRecord), s.Ready i tag → s.Holds i id 3 sp r →
    let halted := ([.link0, .link1].flatMap fun j => (List.finRange 4).map fun k => ((j, k) : SlotRef)).foldl
      (fun s k => s.slotSpaceGone sp k) (s.heard i)
    let pages := (rangePages sp 0 256).filter fun p => (s.entry p).isSome
    let absent := (halted.detachAll pages).1.setSpace sp none
    exec (.spaceDestroy i tag [id]) s = .next
      ((if r.guest = .none then absent else absent.raiseOn i.other (.spaceChanged (spaceSet sp))).answered i 0x11 tag
        ([0x00, id] ++ be16 (halted.detachAll pages).2)).finish) ∧
  ∀ (s : State) (sp : SpaceId) (k : SlotRef),
    (∀ last, s.slot k = .idle last → s.slotSpaceGone sp k = s) ∧
    ∀ t, s.slot k = .active t →
      (¬(t.counted = true ∧ t.space = sp) → s.slotSpaceGone sp k = s) ∧
      (t.counted = true → t.space = sp → (∃ cause, t.phase = .halted cause) →
        s.slotSpaceGone sp k = s.setSlot k (.active { t with counted := false })) ∧
      (t.counted = true → t.space = sp → (∀ cause, t.phase ≠ .halted cause) →
        let gone : Transfer := { t with counted := false, phase := .halted .spaceGone }
        ((∀ g, (s.link k.1).segment = some g → g.slot ≠ k.2) → s.slotSpaceGone sp k = s.setSlot k (.active gone)) ∧
        (∀ g, (s.link k.1).segment = some g → g.slot = k.2 →
          s.slotSpaceGone sp k =
            State.segAnswered
              (State.onLink
                { s with arbiter := { s.arbiter with waiting := s.arbiter.waiting.filter fun c => c ≠ .dataPath k.1 } }
                k.1 fun l => { l with segment := none })
              k.1 g.tag k.2 gone 0x45 []))

/-- The checks of a space request before its own (R50): its space id, its space, the link's right, then its ranges,
each answered in the request's own reply with the other fields 0, and nothing changes. -/
def Obligations.SpaceRequestsRefused : Prop :=
  ∀ (s : State) (i : LinkId) (tag id : Byte), s.Ready i tag →
    let answer := fun (c : Instr) (kind : Byte) (payload : List Byte) =>
      exec c s = .next ((s.heard i).answered i kind tag payload).settle
    (∀ code, s.spaceRefusal? i id 3 = some code →
      answer (.spaceDestroy i tag [id]) 0x11 [code, id, 0, 0] ∧
      ∀ right, answer (.spaceGrant i tag [id, right]) 0x12 [code, id, 0]) ∧
    (∀ code, s.spaceRefusal? i id 1 = some code →
      answer (.spaceInfo i tag [id]) 0x13 [code, id, 0, 0, 0, 0, 0, 0, 0] ∧
      ∀ a b c d clear, answer (.usage i tag [id, a, b, c, d, clear]) 0x18 [code, 0, 0]) ∧
    (∀ code, s.spaceRefusal? i id 2 = some code → ∀ a b c d,
      answer (.map i tag [id, a, b, c, d]) 0x14 [code, 0, 0] ∧ answer (.unmap i tag [id, a, b, c, d]) 0x15 [code, 0, 0] ∧
      ∀ on, answer (.protect i tag [id, a, b, c, d, on]) 0x16 [code, 0, 0]) ∧
    (∀ sp r a b c d, s.Holds i id 2 sp r →
      let first := nat16 a b
      let count := nat16 c d
      (count = 0 ∨ 256 < count ∨ r.size < first + count →
        answer (.map i tag [id, a, b, c, d]) 0x14 [0x17, 0, 0] ∧
        answer (.unmap i tag [id, a, b, c, d]) 0x15 [0x17, 0, 0] ∧
        ∀ on, answer (.protect i tag [id, a, b, c, d, on]) 0x16 [0x17, 0, 0]) ∧
      ∀ on : Byte, 1 < on.toNat → answer (.protect i tag [id, a, b, c, d, on]) 0x16 [0x17, 0, 0]) ∧
    ∀ sp r a b c d clear, s.Holds i id 1 sp r →
      (nat16 c d = 0 ∨ 256 < nat16 c d ∨ r.size < nat16 a b + nat16 c d ∨ 1 < clear.toNat) →
      answer (.usage i tag [id, a, b, c, d, clear]) 0x18 [0x17, 0, 0]

/-- MAP (R31, R57, R58): all or nothing. With fewer free frames than absent pages it is answered NO_FRAME and nothing
changes. Otherwise the absent pages, ascending, take the frames at the head of the free queue in order, each page on
its frame with its flags at no but for copy-pending, each frame HELD with a list of one; and the fall is examined
(R36, R39). -/
def Obligations.MapAllOrNothing : Prop :=
  ∀ (s : State) (i : LinkId) (tag id a b c d : Byte) (sp : SpaceId) (r : SpaceRecord), s.Ready i tag →
    s.freeQueue.Nodup → s.Holds i id 2 sp r → 1 ≤ nat16 c d → nat16 c d ≤ 256 → nat16 a b + nat16 c d ≤ r.size →
    let absent := (rangePages sp (nat16 a b) (nat16 c d)).filter fun p => (s.entry p).isNone
    let n := absent.length
    (s.freeQueue.length < n →
      exec (.map i tag [id, a, b, c, d]) s = .next ((s.heard i).answered i 0x14 tag (0x30 :: be16 n)).settle) ∧
    (n ≤ s.freeQueue.length →
      let left := s.freeQueue.length - n
      let low := s.supply = .normal ∧ left < s.lowMark ∧ 0 < n
      ∃ x : State,
        exec (.map i tag [id, a, b, c, d]) s = .next (x.answered i 0x14 tag (0x00 :: be16 n)).settle ∧
        x = { (if low then (s.heard i).raiseBoth (.frameSupply .low left) else s.heard i) with
              freeQueue := s.freeQueue.drop n
              supply := if low then .low else s.supply
              spaces := x.spaces
              frames := x.frames } ∧
        (∀ (j : Nat) (p : BackRef) (f : FrameId), absent[j]? = some p → s.freeQueue[j]? = some f →
          x.entry p = some { frame := f, writeProtect := false, referenced := false, modified := false,
                             copyPending := s.jobs.any fun job => job.kind = .privateCopy p } ∧
          x.frame f = { s.frame f with state := .held [p] }) ∧
        (∀ p, p ∉ absent → x.entry p = s.entry p) ∧ (∀ f : FrameId, f ∉ s.freeQueue.take n → x.frame f = s.frame f) ∧
        ∀ tp, (x.space tp).map (fun q => (q.size, q.owner, q.guest)) =
          (s.space tp).map fun q => (q.size, q.owner, q.guest))

/-- UNMAP (R59, R60) detaches the present pages of the range in ascending order and answers their number. A detach
(R13, R21, R34, R35, R53) makes the entry absent and takes it from its frame's list; at share count 0 the frame stays
HELD if it is moving, becomes RETIRED if it is poisoned, and else joins the clear queue. -/
def Obligations.UnmapDetaches : Prop :=
  (∀ (s : State) (i : LinkId) (tag id a b c d : Byte) (sp : SpaceId) (r : SpaceRecord), s.Ready i tag →
    s.Holds i id 2 sp r → 1 ≤ nat16 c d → nat16 c d ≤ 256 → nat16 a b + nat16 c d ≤ r.size →
    let present := (rangePages sp (nat16 a b) (nat16 c d)).filter fun p => (s.entry p).isSome
    exec (.unmap i tag [id, a, b, c, d]) s = .next
      (((s.heard i).detachAll present).1.answered i 0x15 tag (0x00 :: be16 present.length)).endEvent) ∧
  (∀ s : State, s.detachAll [] = (s, 0)) ∧
  (∀ (s : State) (p : BackRef) (rest : List BackRef),
    s.detachAll (p :: rest) =
      (((s.detach p).1.detachAll rest).1, (if (s.detach p).2 then 1 else 0) + ((s.detach p).1.detachAll rest).2)) ∧
  ∀ (s : State) (p : BackRef) (e : MapEntry), s.entry p = some e →
    let r := s.frame e.frame
    let refs := r.state.refs.erase p
    let loose := (s.setEntry p none).setFrame e.frame { r with state := .held refs }
    (refs ≠ [] → s.detach p = (loose, false)) ∧
    (refs = [] → r.moving = true → s.detach p = (loose, true)) ∧
    (refs = [] → r.moving = false → s.detach p = (loose.letGo e.frame, true))

/-- PROTECT and USAGE (R61–R63): PROTECT sets the flag of the present pages of the range and answers how many changed;
USAGE answers the referenced and the modified marks of the range as they stood, then clears both if asked. Neither
changes anything else. -/
def Obligations.ProtectAndUsage : Prop :=
  ∀ (s : State) (i : LinkId) (tag id a b c d : Byte) (sp : SpaceId) (r : SpaceRecord) (on : Bool), s.Ready i tag →
    1 ≤ nat16 c d → nat16 c d ≤ 256 → nat16 a b + nat16 c d ≤ r.size →
    let pages := rangePages sp (nat16 a b) (nat16 c d)
    let marks := fun which : MapEntry → Bool => markBytes (pages.map fun p => (s.entry p).elim false which)
    let changed := fun (x : State) (change : MapEntry → MapEntry) =>
      x = { s.heard i with spaces := x.spaces } ∧
      (∀ p, x.entry p = if p ∈ pages then (s.entry p).map change else s.entry p) ∧
      ∀ tp, (x.space tp).map (fun q => (q.size, q.owner, q.guest)) =
        (s.space tp).map fun q => (q.size, q.owner, q.guest)
    (s.Holds i id 2 sp r →
      ∃ x, changed x (fun e => { e with writeProtect := on }) ∧
        exec (.protect i tag [id, a, b, c, d, if on then 1 else 0]) s = .next
          (x.answered i 0x16 tag (0x00 :: be16 (pages.countP fun p =>
            (s.entry p).elim false fun e => e.writeProtect != on))).settle) ∧
    (s.Holds i id 1 sp r →
      ∃ x, changed x (fun e => if on then { e with referenced := false, modified := false } else e) ∧
        exec (.usage i tag [id, a, b, c, d, if on then 1 else 0]) s = .next
          (x.answered i 0x18 tag
            (0x00 :: be16 (nat16 c d) ++ marks MapEntry.referenced ++ marks MapEntry.modified)).settle)

/-- CLONE's checks, first failing first (R70, R71), each answered with its status and 0, and nothing changes; and the
accepted CLONE (R72): each destination page in ascending order joins the list of the frame of its source page, with
the source page's write-protect, referenced and modified no, and copy-pending if a PRIVATE job names it. A LIVE space
has at most 256 pages (R46). -/
def Obligations.CloneShares : Prop :=
  ∀ (s : State) (i : LinkId) (tag sid a b did c d e f : Byte), s.Ready i tag →
    let sFirst := nat16 a b
    let dFirst := nat16 c d
    let count := nat16 e f
    let clone : Instr := .clone i tag [sid, a, b, did, c, d, e, f]
    let answer := fun code => exec clone s = .next ((s.heard i).answered i 0x17 tag [code, 0, 0]).settle
    let bad := fun id : Byte => id = 0 ∨ 16 < id.toNat
    (bad sid ∨ bad did → answer 0x17) ∧
    ∀ sp dp : SpaceId, sid.toNat = sp.val + 1 → did.toNat = dp.val + 1 →
      (s.space sp = none ∨ s.space dp = none → answer 0x21) ∧
      ∀ sr dr, s.space sp = some sr → s.space dp = some dr →
        (sr.rank i < 1 ∨ dr.rank i < 2 → answer 0x22) ∧
        (1 ≤ sr.rank i → 2 ≤ dr.rank i →
          let outside := count = 0 ∨ 256 < count ∨ sr.size < sFirst + count ∨ dr.size < dFirst + count ∨
            sp = dp ∧ sFirst < dFirst + count ∧ dFirst < sFirst + count
          let sources := rangePages sp sFirst count
          let dests := rangePages dp dFirst count
          let uses := fun g => sources.countP fun p => (s.entry p).any fun en => en.frame = g
          (outside → answer 0x17) ∧
          (¬outside → (∃ p ∈ sources, s.entry p = none) → answer 0x24) ∧
          (¬outside → (∀ p ∈ sources, s.entry p ≠ none) → (∃ p ∈ dests, s.entry p ≠ none) → answer 0x23) ∧
          (¬outside → (∀ p ∈ sources, s.entry p ≠ none) → (∀ p ∈ dests, s.entry p = none) →
            ((∃ g, 0 < uses g ∧ 64 < (s.frame g).state.refs.length + uses g) → answer 0x25) ∧
            ((∀ g, 0 < uses g → (s.frame g).state.refs.length + uses g ≤ 64) → sr.size ≤ 256 → dr.size ≤ 256 →
              ∃ x : State,
                exec clone s = .next (x.answered i 0x17 tag (0x00 :: be16 count)).settle ∧
                x = { s.heard i with spaces := x.spaces, frames := x.frames } ∧
                (∀ p q en, (p, q) ∈ sources.zip dests → s.entry p = some en →
                  x.entry q = some { frame := en.frame, writeProtect := en.writeProtect, referenced := false,
                                     modified := false,
                                     copyPending := s.jobs.any fun job => job.kind = .privateCopy q }) ∧
                (∀ q, q ∉ dests → x.entry q = s.entry q) ∧
                (∀ g, x.frame g = if uses g = 0 then s.frame g else
                  { s.frame g with state := .held ((s.frame g).state.refs ++
                      ((sources.zip dests).filter fun pq => (s.entry pq.1).any fun en => en.frame = g).map
                        Prod.snd) }) ∧
                ∀ tp, (x.space tp).map (fun q => (q.size, q.owner, q.guest)) =
                  (s.space tp).map fun q => (q.size, q.owner, q.guest))))

/-! ### Transfers -/

/-- OPEN (R153, R154): the first check that fails answers with its status and changes no slot; an accepted OPEN sets
the slot in DATA at position 0, expecting toggle 0, counting its space, its idle timer started or stopped by a timeout
of 0. CLOSE (R77, R152, R169): an open slot becomes IDLE, leaves its waiter set and keeps its final status and
position as last outcome, which the reply carries; an IDLE slot is answered SLOT_IDLE and a number outside 0–3 RANGE,
with 0 and 0. -/
def Obligations.OpenAndClose : Prop :=
  (∀ (s : State) (i : LinkId) (tag k d id a b c e f g : Byte), s.Ready i tag →
     let start := nat24 a b c
     let length := nat24 e f g
     (∀ code, s.openRefusal? i k d id start length = some code →
       exec (.openSlot i tag [k, d, id, a, b, c, e, f, g]) s = .next
         ((s.heard i).answered i 0x20 tag [code, k]).settle) ∧
     ∀ (slot : SlotId) last sp r, k.toNat = slot.val → d.toNat < 2 → s.slot (i, slot) = .idle last →
       s.Holds i id (if d = 0 then 1 else 2) sp r → start ≤ 131071 → 1 ≤ length → length ≤ 131072 →
       start + length ≤ r.size * 512 →
       exec (.openSlot i tag [k, d, id, a, b, c, e, f, g]) s = .next
         (((s.heard i).setSlot (i, slot) (.active
           { phase := .data, direction := if d = 0 then .read else .write, space := sp, counted := true, start := start,
             length := length, position := 0, toggle := false, last := none,
             timer := (s.link i).freshTimer })).answered i 0x20 tag [0x00, k]).settle) ∧
  ∀ (s : State) (i : LinkId) (tag k : Byte), s.Ready i tag →
    (4 ≤ k.toNat →
      exec (.closeSlot i tag [k]) s = .next ((s.heard i).answered i 0x22 tag [0x17, k, 0, 0, 0, 0]).settle) ∧
    ∀ slot : SlotId, k.toNat = slot.val →
      (∀ last, s.slot (i, slot) = .idle last →
        exec (.closeSlot i tag [k]) s = .next ((s.heard i).answered i 0x22 tag [0x41, k, 0, 0, 0, 0]).settle) ∧
      ∀ t code status, s.slot (i, slot) = .active t →
        ((t.phase = .data ∧ code = 0x02 ∧ status = FinalStatus.short) ∨
          (t.phase = .final ∧ code = 0x03 ∧ status = FinalStatus.done) ∨
          ∃ cause, t.phase = .halted cause ∧ code = cause.code ∧ status = FinalStatus.halted cause) →
        exec (.closeSlot i tag [k]) s = .next
          ((State.setSlot
            { s.heard i with jobs := s.jobs.map fun j =>
                { j with waiters := j.waiters.filter fun w => w ≠ (i, slot) } }
            (i, slot) (.idle (some { status := status, position := t.position }))).answered i 0x22 tag
              ([0x00, k, code] ++ be24 t.position)).settle

/-- SLOT_INFO (R176, Table 10-10): the record of a slot of the link, with bytes 3 to 16 at 0 for an IDLE slot and
bytes 20 to 23 at 0 for an open one. FRAME_INFO (R23, Table 10-11): the record of a frame with the first 16 entries of
its list. A number out of range is answered RANGE (log 14). Nothing changes. -/
def Obligations.RecordsReported : Prop :=
  (∀ (s : State) (i : LinkId) (tag k : Byte), s.Ready i tag →
     let answer := fun payload => exec (.slotInfo i tag [k]) s = .next ((s.heard i).answered i 0x23 tag payload).settle
     (4 ≤ k.toNat → answer (0x17 :: List.replicate 23 0)) ∧
     ∀ slot : SlotId, k.toNat = slot.val →
       (s.slot (i, slot) = .idle none → answer ([0x00, k, 0] ++ List.replicate 21 0)) ∧
       (∀ o, s.slot (i, slot) = .idle (some o) →
         answer ([0x00, k, 0] ++ List.replicate 17 0 ++ [o.status.code] ++ be24 o.position)) ∧
       ∀ t, s.slot (i, slot) = .active t →
         answer ([0x00, k, match t.phase with
             | .data => 1
             | .final => 2
             | .halted _ => 3] ++
           [if t.direction = .write then 1 else 0, if t.counted then BitVec.ofNat 8 (t.space.val + 1) else 0] ++
           be24 t.start ++ be24 t.length ++ be24 t.position ++ [if t.toggle then 1 else 0] ++
           (match t.last with
             | none => [0, 0]
             | some g => [if g.toggle then 3 else 1, BitVec.ofNat 8 g.count]) ++
           [match t.phase with
             | .halted cause => cause.code
             | _ => 0,
            match s.jobs.find? fun j => (i, slot) ∈ j.waiters with
             | none => 0
             | some j => if j.entry?.isSome then 1 else 2,
            match t.timer with
             | .stopped => 0
             | .running => 1
             | .paused => 2] ++ List.replicate 4 0)) ∧
  ∀ (s : State) (i : LinkId) (tag a b : Byte), s.Ready i tag →
    let answer := fun payload =>
      exec (.frameInfo i tag [a, b]) s = .next ((s.heard i).answered i 0x30 tag payload).settle
    (4096 ≤ nat16 a b → answer (0x17 :: List.replicate 11 0)) ∧
    ∀ f : FrameId, f.val = nat16 a b →
      let r := s.frame f
      let entries := r.state.refs.take 16
      answer ([0x00, a, b, r.state.code, BitVec.ofNat 8 r.state.refs.length, BitVec.ofNat 8 r.tally,
          (if r.poisoned then 1 else 0) ||| (if r.retirePending then 2 else 0) ||| (if r.moving then 4 else 0) |||
            (if r.lastError = none then 0 else 8)] ++
        (match r.lastError with
          | none => [0, 0, 0, 0]
          | some e => match e.kind with
            | .corrected bit => [BitVec.ofNat 8 e.word.val, 1, BitVec.ofNat 8 bit.val, e.finder.code]
            | .uncorrectable => [BitVec.ofNat 8 e.word.val, 2, 0, e.finder.code]) ++
        [BitVec.ofNat 8 entries.length] ++
        entries.flatMap fun p => [BitVec.ofNat 8 (p.1.val + 1), BitVec.ofNat 8 p.2.val])

/-- A SEG answered without an access (R155–R158, R163): refused on its parameters with the slot unchanged; by a HALTED
slot with its cause; a retransmission with OK and the saved data; a first segment with toggle 1 halts with SEQUENCE; a
new one to a FINAL slot is PAST_END; a write beyond the length halts with OVERRUN. No data moves. -/
def Obligations.SegAnsweredAtOnce : Prop :=
  ∀ (s : State) (i : LinkId) (tag k toggle : Byte) (body : List Byte), s.Ready i tag → 1 ≤ body.length →
    body.length ≤ 64 →
    let seg : Instr := .seg i tag (k :: toggle :: body)
    let answer := fun payload => exec seg s = .next ((s.heard i).answered i 0x21 tag payload).settle
    (4 ≤ k.toNat → answer [0x17, k, 0, 0, 0, 0]) ∧
    ∀ slot : SlotId, k.toNat = slot.val →
      (∀ last, s.slot (i, slot) = .idle last →
        answer [if toggle.toNat < 2 then 0x41 else 0x17, k, 0, 0, 0, 0]) ∧
      ∀ t, s.slot (i, slot) = .active t →
        let countOk := t.direction = .write ∨ ∃ n : Byte, body = [n] ∧ 1 ≤ n.toNat ∧ n.toNat ≤ 64
        let then_ := fun (t' : Transfer) code data =>
          exec seg s = .next ((s.heard i).segAnswered i tag slot t' code data).settle
        (¬(toggle.toNat < 2 ∧ countOk) → answer ([0x17, k, if t.toggle then 1 else 0] ++ be24 t.position)) ∧
        (toggle.toNat < 2 → countOk →
          (∀ cause, t.phase = .halted cause → then_ t cause.code []) ∧
          ((∀ cause, t.phase ≠ .halted cause) → decide (toggle = 1) ≠ t.toggle →
            (∀ g, t.last = some g → then_ t 0x00 g.data) ∧
            (t.last = none → then_ { t with phase := .halted .sequence } 0x44 [])) ∧
          (t.phase = .final → decide (toggle = 1) = t.toggle → then_ t 0x43 []) ∧
          (t.phase = .data → decide (toggle = 1) = t.toggle → t.direction = .write →
            t.length - t.position < body.length → then_ { t with phase := .halted .overrun } 0x42 []))

/-- A new SEG of a slot in DATA presents one access (R159, R163, R166): the slot's timer is stopped and the byte count
fixed, the bytes of a write or the smaller of the count asked and what remains. While the store is busy it waits; on
an idle store it is granted at once. -/
def Obligations.SegPresentsAccess : Prop :=
  ∀ (s : State) (i : LinkId) (tag k toggle : Byte) (body : List Byte) (slot : SlotId) (t : Transfer) (g : Segment),
    s.Ready i tag → 1 ≤ body.length → body.length ≤ 64 → k.toNat = slot.val → toggle.toNat < 2 →
    s.slot (i, slot) = .active t → t.phase = .data → decide (toggle = 1) = t.toggle →
    ((t.direction = .write ∧ body.length ≤ t.length - t.position ∧
        g = { tag := tag, slot := slot, toggle := t.toggle, bytes := body, count := body.length }) ∨
      ∃ n : Byte, t.direction = .read ∧ body = [n] ∧ 1 ≤ n.toNat ∧ n.toNat ≤ 64 ∧
        g = { tag := tag, slot := slot, toggle := t.toggle, bytes := [], count := min n.toNat (t.length - t.position) }) →
    .dataPath i ∉ s.arbiter.waiting →
    let taken := ((s.heard i).setSlot (i, slot) (.active { t with timer := .stopped })).onLink i fun l =>
      { l with segment := some g }
    (s.arbiter.current.isSome = true →
      exec (.seg i tag (k :: toggle :: body)) s = .next
        (State.settle
          { taken with arbiter := { s.arbiter with waiting := s.arbiter.waiting ++ [.dataPath i] } })) ∧
    (s.arbiter.current = none →
      exec (.seg i tag (k :: toggle :: body)) s = .next
        (State.finish (State.grantSegment
          { taken with arbiter := { current := none, waiting := [], lastServed := .dataPath i } } i)))

/-- A segment's access at its grant (R67, R160, R161, R164, R165, R167): ACCESS where the right is lacking; halted by
the translation; or, translated MOVE-OK, the access: an UNCORRECTABLE word halts with DATA_LOST and moves nothing,
else the position rises, the toggle flips, the last segment is kept, each page is marked, and the slot is FINAL at its
length. -/
def Obligations.GrantMovesSegment : Prop :=
  ∀ (s : State) (i : LinkId) (g : Segment) (t : Transfer), (s.link i).segment = some g →
    s.slot (i, g.slot) = .active t → t.phase = .data →
    let freed := s.onLink i fun l => { l with segment := none }
    let right := ∃ r, s.space t.space = some r ∧ (if t.direction = .read then 1 else 2) ≤ r.rank i
    let found := s.translate t.direction t.space (pagesTouched (t.start + t.position) g.count)
    let halts := fun (x : State) (cause : HaltCause) =>
      s.grantSegment i = x.segAnswered i g.tag g.slot { t with phase := .halted cause } cause.code []
    let accepts := fun (x : State) (pages : List BackRef) (data : List Byte) =>
      ∃ y : State, y = { x with spaces := y.spaces } ∧
        (∀ p, y.entry p = if p ∈ pages then (x.entry p).map fun e =>
            { e with referenced := true, modified := e.modified || decide (t.direction = .write) } else x.entry p) ∧
        (∀ tp, (y.space tp).map (fun q => (q.size, q.owner, q.guest)) =
          (x.space tp).map fun q => (q.size, q.owner, q.guest)) ∧
        s.grantSegment i = y.segAnswered i g.tag g.slot
          { t with
            phase := if t.position + g.count = t.length then .final else .data
            position := t.position + g.count
            toggle := !t.toggle
            last := some { toggle := g.toggle, count := g.count, position := t.position + g.count, data := data } }
          0x00 data
    (¬right → halts freed .access) ∧
    (∀ p cause, right → found = .stop p (.halt cause) → halts freed cause) ∧
    ∀ parts pages, right → found = .moveOk parts pages →
      (t.direction = .read →
        let errors := s.memory.errorsIn (parts.flatMap Part.words)
        let after := State.commonEffects { freed with memory := s.memory.writeBack errors } .read errors
        ((∃ e ∈ errors, e.kind = .uncorrectable) → halts after .dataLost) ∧
        ((∀ e ∈ errors, e.kind ≠ .uncorrectable) → accepts after pages (parts.flatMap s.memory.readPart))) ∧
      (t.direction = .write →
        let errors := s.memory.errorsIn (parts.flatMap Part.mergeWords)
        ((∃ e ∈ errors, e.kind = .uncorrectable) →
          halts (State.commonEffects { freed with memory := s.memory.writeBack errors } .merge errors) .dataLost) ∧
        ((∀ e ∈ errors, e.kind ≠ .uncorrectable) →
          accepts (State.commonEffects { freed with memory := (s.memory.segmentWrite parts g.bytes).1 } .merge errors)
            pages []))

/-- A write segment that must wait (R77–R79, R161, R175): WAIT-COPY and WAIT-MOVE join the waiters of their job and
leave any other; NEEDS-COPY is answered WAIT with no job made while the queue holds 8, the slot then standing in no
waiter set (log 22), halts with NO_FRAME on an empty free queue, and else makes a PRIVATE job on the head free frame. No
data moves, and the position and toggle stay. -/
def Obligations.GrantWaitsForCopy : Prop :=
  ∀ (s : State) (i : LinkId) (g : Segment) (t : Transfer) (p : BackRef) (why : PageAnswer),
    (s.link i).segment = some g → s.slot (i, g.slot) = .active t → t.phase = .data →
    (∃ r, s.space t.space = some r ∧ (if t.direction = .read then 1 else 2) ≤ r.rank i) →
    s.translate t.direction t.space (pagesTouched (t.start + t.position) g.count) = .stop p why →
    let freed := s.onLink i fun l => { l with segment := none }
    let joined := fun picks : CopyJob → Prop =>
      ∃ jobs : List CopyJob, jobs.length = s.jobs.length ∧
        (∀ (n : Nat) (j j' : CopyJob), s.jobs[n]? = some j → jobs[n]? = some j' →
          j' = { j with waiters := j'.waiters } ∧
          (picks j → (i, g.slot) ∈ j'.waiters ∧ j'.waiters.filter (· ≠ (i, g.slot)) = j.waiters.filter (· ≠ (i, g.slot))) ∧
          (¬picks j → j'.waiters = j.waiters.filter (· ≠ (i, g.slot)))) ∧
        s.grantSegment i = State.segAnswered { freed with jobs := jobs } i g.tag g.slot t 0x01 []
    (why = .waitCopy → joined fun j => j.kind = .privateCopy p) ∧
    (∀ f, why = .waitMove f → joined fun j => j.entry? = none ∧ j.source = f) ∧
    ∀ e, why = .needsCopy e →
      (8 ≤ s.jobs.length → s.grantSegment i = State.segAnswered
        { freed with jobs := s.jobs.map fun j => { j with waiters := j.waiters.filter fun w => w ≠ (i, g.slot) } }
        i g.tag g.slot t 0x01 []) ∧
      (s.jobs.length < 8 → s.freeQueue = [] →
        s.grantSegment i = freed.segAnswered i g.tag g.slot { t with phase := .halted .noFrame } 0x30 []) ∧
      ∀ target rest, s.jobs.length < 8 → s.freeQueue = target :: rest →
        let low := s.supply = .normal ∧ rest.length < s.lowMark
        let made := (freed.setFrame target { s.frame target with state := .target }).setEntry p
          (some { e with copyPending := true })
        let job : CopyJob :=
          { kind := .privateCopy p, source := e.frame, target := target, waiters := [(i, g.slot)],
            phase := if s.jobs = [] then .copying else .queued }
        s.grantSegment i =
          State.segAnswered
            { (if low then made.raiseBoth (.frameSupply .low rest.length) else made) with
              freeQueue := rest
              supply := if low then .low else s.supply
              jobs := (s.jobs.map fun j => { j with waiters := j.waiters.filter fun w => w ≠ (i, g.slot) }) ++ [job]
              arbiter := if s.jobs = [] ∧ .copyEngine ∉ s.arbiter.waiting
                then { s.arbiter with waiting := s.arbiter.waiting ++ [.copyEngine] } else s.arbiter }
            i g.tag g.slot t 0x01 []

/-- Translation (R64, R65): the checks of Table 3-4 on one page in order, and the pages a segment touches in ascending
order, the first page that does not answer MOVE-OK deciding. -/
def Obligations.TranslationDecides : Prop :=
  (∀ (s : State) (d : Direction) (p : BackRef), s.entry p = none → s.translatePage d p = .halt .notMapped) ∧
  (∀ (s : State) (p : BackRef) (e : MapEntry), s.entry p = some e →
    let r := s.frame e.frame
    (r.poisoned = true → s.translatePage .read p = .halt .dataLost) ∧
    (r.poisoned = false → s.translatePage .read p = .moveOk e.frame) ∧
    (e.writeProtect = true → s.translatePage .write p = .halt .writeProtected) ∧
    (e.writeProtect = false → r.poisoned = true → s.translatePage .write p = .halt .dataLost) ∧
    (e.writeProtect = false → r.poisoned = false →
      (r.moving = true → s.translatePage .write p = .waitMove e.frame) ∧
      (r.moving = false → e.copyPending = true → s.translatePage .write p = .waitCopy) ∧
      (r.moving = false → e.copyPending = false → 1 < r.state.refs.length →
        s.translatePage .write p = .needsCopy e) ∧
      (r.moving = false → e.copyPending = false → r.state.refs.length ≤ 1 →
        s.translatePage .write p = .moveOk e.frame))) ∧
  ∀ (s : State) (d : Direction) (sp : SpaceId) (a n : Nat) (page : PageId), page.val = a / 512 →
    let o := a % 512
    let found := s.translate d sp (pagesTouched a n)
    (∀ why, s.translatePage d (sp, page) = why → (∀ f, why ≠ .moveOk f) → found = .stop (sp, page) why) ∧
    ∀ f, s.translatePage d (sp, page) = .moveOk f →
      (o + n ≤ 512 → found = .moveOk [{ frame := f, offset := o, count := n }] [(sp, page)]) ∧
      ∀ next : PageId, next.val = page.val + 1 → 512 < o + n →
        (∀ why, s.translatePage d (sp, next) = why → (∀ f', why ≠ .moveOk f') → found = .stop (sp, next) why) ∧
        ∀ f', s.translatePage d (sp, next) = .moveOk f' →
          found = .moveOk [{ frame := f, offset := o, count := 512 - o }, { frame := f', offset := 0, count := o + n - 512 }]
            [(sp, page), (sp, next)]

/-! ### Frames -/

/-- RETIRE (R109–R112): the first case of Table 5-5 that holds. Every reply but RANGE carries the frame, its state and
the length of the retired list when it is formed; RANGE repeats the frame number with 0 for the rest. -/
def Obligations.RetireByState : Prop :=
  ∀ (s : State) (i : LinkId) (tag a b : Byte), s.Ready i tag → (s.link i).deferred.length < 4 →
    let retire : Instr := .retire i tag [a, b]
    (4096 ≤ nat16 a b →
      exec retire s = .next ((s.heard i).answeredDeferred i .retire tag [0x17, a, b, 0, 0, 0]).settle) ∧
    ∀ f : FrameId, f.val = nat16 a b →
      let r := s.frame f
      let answer := fun (x : State) code =>
        exec retire s = .next
          (x.answeredDeferred i .retire tag
            ([code, a, b, (x.frame f).state.code] ++ be16 x.scrub.retired.length)).settle
      let limited := r.state ≠ .retired ∧ 256 ≤ s.scrub.discretionary
      (r.state = .retired → answer (s.heard i) 0x00) ∧
      (limited → answer (s.heard i) 0x31) ∧
      (¬limited → r.state = .free →
        answer (((s.heard i).freeFalls (s.freeQueue.erase f)).outOfService f true) 0x00) ∧
      (¬limited → r.state = .clearing →
        exec retire s = .next
          (State.setFrame
            { (s.heard i).deferredPending i .retire tag with scrub := { s.scrub with
                retireWait := s.scrub.retireWait ++ [{ link := i, tag := tag, frame := f }] } } f
            { r with retirePending := r.retirePending || !r.poisoned }).settle) ∧
      (¬limited → r.state = .target → answer (s.heard i) 0x18) ∧
      ∀ refs, ¬limited → r.state = .held refs →
        (r.poisoned = true ∨ r.moving = true → answer (s.heard i) 0x18) ∧
        (r.poisoned = false → r.moving = false → 8 ≤ s.jobs.length → answer (s.heard i) 0x14) ∧
        (r.poisoned = false → r.moving = false → s.jobs.length < 8 → s.freeQueue = [] → answer (s.heard i) 0x30) ∧
        ∀ target rest, r.poisoned = false → r.moving = false → s.jobs.length < 8 → s.freeQueue = target :: rest →
          target ≠ f →
          let falls := ((s.heard i).deferredPending i .retire tag).freeFalls rest
          exec retire s = .next
            (State.endEvent
              { ((falls.setFrame f { r with moving := true }).setFrame target { s.frame target with state := .target })
                with
                jobs := s.jobs ++ [{ kind := .move (some (i, tag)), source := f, target := target, waiters := [],
                                     phase := if s.jobs = [] then .copying else .queued }]
                arbiter := if s.jobs = [] ∧ .copyEngine ∉ s.arbiter.waiting
                  then { s.arbiter with waiting := s.arbiter.waiting ++ [.copyEngine] } else s.arbiter })

/-- CHECK (R94, R106): RANGE above 4095; STATE with the frame's state for a CLEARING, TARGET or RETIRED frame; else
the request joins the CHECK queue, and is served at once if the engine is idle. -/
def Obligations.CheckJoinsQueue : Prop :=
  ∀ (s : State) (i : LinkId) (tag a b : Byte), s.Ready i tag → (s.link i).deferred.length < 4 →
    let check : Instr := .check i tag [a, b]
    (4096 ≤ nat16 a b →
      exec check s = .next ((s.heard i).answeredDeferred i .check tag [0x17, a, b, 0, 0, 0, 0, 0]).settle) ∧
    ∀ f : FrameId, f.val = nat16 a b →
      let st := (s.frame f).state
      let entry : FrameRequest := { link := i, tag := tag, frame := f }
      let queued : State := { (s.heard i).deferredPending i .check tag with
        scrub := { s.scrub with checkQueue := s.scrub.checkQueue ++ [entry] } }
      (st = .clearing ∨ st = .target ∨ st = .retired →
        exec check s = .next
          ((s.heard i).answeredDeferred i .check tag [0x18, a, b, 0, 0, 0, st.code, 0]).settle) ∧
      (st = .free ∨ st.isHeld = true → s.scrub.engine ≠ .idle → exec check s = .next queued.settle) ∧
      (st = .free ∨ st.isHeld = true → s.scrub.engine = .idle →
        exec check s = .next
          (State.endEvent
            { queued with
              scrub := { s.scrub with checkQueue := [entry], engine := .busy f (.request i tag) }
              arbiter := if .scrubber ∈ s.arbiter.waiting then s.arbiter
                else { s.arbiter with waiting := s.arbiter.waiting ++ [.scrubber] } }))

/-- WAIT_FREE (R40) and the expiry of its timer (R42): RANGE for a count or timeout out of range or a count that can
never be free; OK at once with enough free frames; else it joins the waiter list's tail. An expiry removes the waiter
and answers TIMEOUT. Every reply carries the free count. -/
def Obligations.WaitFreeAnswers : Prop :=
  (∀ (s : State) (i : LinkId) (tag a b c d : Byte), s.Ready i tag → (s.link i).deferred.length < 4 →
    let n := nat16 a b
    let timeout := nat16 c d
    let outside := n = 0 ∨ 4096 < n ∨ timeout = 0 ∨ 60000 < timeout ∨ 4096 < n + s.scrub.retired.length
    let answer := fun code =>
      exec (.waitFree i tag [a, b, c, d]) s = .next
        ((s.heard i).answeredDeferred i .waitFree tag (code :: be16 s.freeQueue.length)).settle
    (outside → answer 0x17) ∧
    (¬outside → n ≤ s.freeQueue.length → answer 0x00) ∧
    (¬outside → s.freeQueue.length < n →
      exec (.waitFree i tag [a, b, c, d]) s = .next
        (State.settle
          { (s.heard i).deferredPending i .waitFree tag with
            waiters := s.waiters ++ [{ link := i, tag := tag, count := n, timeout := timeout }] }))) ∧
  ∀ (s : State) (w : Waiter), s.Stable → w ∈ s.waiters →
    exec (.waitFreeTimerExpiry w.link w.tag) s = .next
      (State.repliedDeferred
        { s with waiters := s.waiters.filter fun v => ¬(v.link = w.link ∧ v.tag = w.tag) } w.link 0x33 w.tag
        (0x32 :: be16 s.freeQueue.length)).settle

/-! ### The Scrubber's work -/

/-- WALK_TIMER_EXPIRY (R94–R97): a visit falls due; it waits while the engine is busy or a CHECK waits, and is else
made at once: a check of the frame at the cursor if it is FREE, or HELD and not moving, a skip otherwise, which starts
the timer again; the cursor advances, and at the wrap the pass count rises and SCRUB_PASS is raised on both links. The
next work of an idle engine (R94, R107): the head CHECK entry is served, or answered STATE if its frame is no longer
HELD or FREE; with no entry a due visit. -/
def Obligations.ScrubberWorks : Prop :=
  (∀ s : State, s.Stable → s.scrub.walkTimer = .running →
     (s.scrub.engine ≠ .idle →
       exec .walkTimerExpiry s = .next { s with scrub := { s.scrub with walkTimer := .due } }) ∧
     (s.scrub.engine = .idle →
       let f := s.scrub.cursor
       let visits := (s.frame f).state = .free ∨ ((s.frame f).state.isHeld = true ∧ (s.frame f).moving = false)
       let wraps := f.val = 4095
       let visited : State :=
         { s with
           scrub := { s.scrub with
             walkTimer := if visits then .stopped else if s.scrub.interval = 0 then .stopped else .running
             engine := if visits then .busy f .walk else .idle
             cursor := if wraps then 0 else f + 1
             passCount := if wraps then s.scrub.passCount + 1 else s.scrub.passCount }
           arbiter := if visits ∧ .scrubber ∉ s.arbiter.waiting
             then { s.arbiter with waiting := s.arbiter.waiting ++ [.scrubber] } else s.arbiter }
       exec .walkTimerExpiry s = .next
         (if wraps then visited.raiseBoth (.scrubPass (s.scrub.passCount + 1)) else visited).endEvent)) ∧
  ∀ s : State,
    (s.scrub.engine ≠ .idle → s.takeWork = s) ∧
    (s.scrub.engine = .idle →
      (s.scrub.checkQueue = [] → s.takeWork = if s.scrub.walkTimer = .due then s.walkVisit else s) ∧
      ∀ q rest, s.scrub.checkQueue = q :: rest →
        let st := (s.frame q.frame).state
        (st = .free ∨ st.isHeld = true →
          s.takeWork =
            { s with
              scrub := { s.scrub with engine := .busy q.frame (.request q.link q.tag) }
              arbiter := if .scrubber ∈ s.arbiter.waiting then s.arbiter
                else { s.arbiter with waiting := s.arbiter.waiting ++ [.scrubber] } }) ∧
        (¬(st = .free ∨ st.isHeld = true) →
          s.takeWork =
            (State.repliedDeferred { s with scrub := { s.scrub with checkQueue := rest } } q.link 0x32 q.tag
              ([0x18] ++ be16 q.frame.val ++ [0, 0, 0, st.code, 0])).takeWork))

/-! ### Completions -/

/-- CLEAR_COMPLETION (R27, R28, R37, R39, R41, R110): the frame leaves the clear queue and is RETIRED or FREE by Table
2-2; the RETIRE requests that wait for it are answered in order, OK or LIMIT; a rise is examined against the supply
state and satisfies waiters in order; the Clearer turns to the next frame. -/
def Obligations.ClearCompletes : Prop :=
  ∀ (s : State) (f : FrameId), s.arbiter.current = some (.clear f) →
    let r := s.frame f
    let queue := s.clearQueue.erase f
    let ended : State :=
      { s with
        clearQueue := queue
        arbiter := { s.arbiter with
          current := none
          waiting := if queue = [] ∨ .clearer ∈ s.arbiter.waiting then s.arbiter.waiting
            else s.arbiter.waiting ++ [.clearer] } }
    let tell := fun (code : Byte) (x : State) =>
      (s.scrub.retireWait.filter fun q => q.frame = f).foldl
        (fun x q => x.repliedDeferred q.link 0x31 q.tag
          ([code] ++ be16 f.val ++ [(x.frame f).state.code] ++ be16 x.scrub.retired.length))
        { x with scrub := { x.scrub with retireWait := s.scrub.retireWait.filter fun q => q.frame ≠ f } }
    let retires := r.poisoned = true ∨ (r.retirePending = true ∧ s.scrub.discretionary < 256)
    (retires →
      exec .clearCompletion s = .next (tell 0x00 (ended.outOfService f (!r.poisoned))).finish) ∧
    (¬retires →
      let free := s.freeQueue ++ [f]
      let risen : State := { ended.setFrame f { r with state := .free, retirePending := false } with freeQueue := free }
      let examined :=
        if s.supply = .low ∧ s.lowMark + 32 ≤ free.length then
          State.raiseBoth { risen with supply := .normal } (.frameSupply .normal free.length)
        else risen
      exec .clearCompletion s = .next
        (State.finish
          ((s.waiters.filter fun w => w.count ≤ free.length).foldl
            (fun x w => x.repliedDeferred w.link 0x33 w.tag (0x00 :: be16 free.length))
            { tell 0x31 examined with waiters := s.waiters.filter fun w => free.length < w.count })))

/-- What a check, or the copy of a FREE source, leads to on a FREE frame (R33, R76, R99): poisoned, it leaves the free
queue and is RETIRED, not discretionary; retire-pending, it is RETIRED as discretionary below the limit and else loses
the flag. -/
def Obligations.FreeFrameResolved : Prop :=
  ∀ (s : State) (f : FrameId), (s.frame f).state = .free →
    let r := s.frame f
    (r.poisoned = true → s.resolveFree f = (s.freeFalls (s.freeQueue.erase f)).outOfService f false) ∧
    (r.poisoned = false → r.retirePending = true → s.scrub.discretionary < 256 →
      s.resolveFree f = (s.freeFalls (s.freeQueue.erase f)).outOfService f true) ∧
    (r.poisoned = false → r.retirePending = true → 256 ≤ s.scrub.discretionary →
      s.resolveFree f = s.setFrame f { r with retirePending := false }) ∧
    (r.poisoned = false → r.retirePending = false → s.resolveFree f = s)

/-- COPY_COMPLETION (R76, R80–R83, R87–R91): the Frame Table's effects come first, the job leaves the queue and is
resolved by Table 4-2 or Table 4-4 against the records as they stand, and the next job's copy is presented. The waiters
of a PRIVATE job whose source is lost while its entry names it (R81, R159, R162, R175): each in DATA goes HALTED with
DATA_LOST and keeps all else, its waiting access withdrawn and its SEG answered DATA_LOST; SLOT_READY names the others,
which do not change. -/
def Obligations.CopyCompletes : Prop :=
  (∀ (s : State) (waiters : List SlotRef),
    let inData := fun k : SlotRef => match s.slot k with
      | .active t => decide (t.phase = .data)
      | .idle _ => false
    s.failWaiters waiters =
      ((waiters.filter inData).foldl (fun x k => x.haltSlot k .dataLost) s).slotReady
        (waiters.filter fun k => !inData k)) ∧
  (∀ (s : State) (k : SlotRef) (t : Transfer) (cause : HaltCause), s.slot k = .active t →
    let lost : Transfer := { t with phase := .halted cause }
    ((∀ g, (s.link k.1).segment = some g → g.slot ≠ k.2) → s.haltSlot k cause = s.setSlot k (.active lost)) ∧
    ∀ g, (s.link k.1).segment = some g → g.slot = k.2 →
      s.haltSlot k cause =
        State.segAnswered
          (State.onLink
            { s with arbiter := { s.arbiter with waiting := s.arbiter.waiting.filter fun c => c ≠ .dataPath k.1 } }
            k.1 fun l => { l with segment := none })
          k.1 g.tag k.2 lost cause.code []) ∧
  ∀ (s : State) (j : CopyJob) (rest : List CopyJob) (a b : FrameId) (errors : List ErrorEvent),
    s.arbiter.current = some (.copy a b errors) → s.jobs = j :: rest →
    let ended := State.commonEffects { s with jobs := rest, arbiter := { s.arbiter with current := none } } .copy errors
    let bad := ∃ e ∈ errors, e.kind = .uncorrectable
    let then_ := fun x : State =>
      exec .copyCompletion s = .next (State.finish (match rest with
        | [] => x
        | next :: more =>
          { x with
            jobs := { next with phase := .copying } :: more
            arbiter := if .copyEngine ∈ x.arbiter.waiting then x.arbiter
              else { x.arbiter with waiting := x.arbiter.waiting ++ [.copyEngine] } }))
    (∀ p, j.kind = .privateCopy p →
      let x := if (ended.frame j.source).state = .free then ended.resolveFree j.source else ended
      let names := ∃ e, x.entry p = some e ∧ e.frame = j.source
      let back := (x.letGo j.target).clearCopyPending p
      ((x.frame j.target).poisoned = true → then_ (back.slotReady j.waiters)) ∧
      ((x.frame j.target).poisoned = false →
        (bad → names → then_ (back.failWaiters j.waiters)) ∧
        (bad → ¬names → then_ (back.slotReady j.waiters)) ∧
        (¬bad → (¬names ∨ (x.frame j.source).state.refs.length ≤ 1) → then_ (back.slotReady j.waiters)) ∧
        ∀ e, ¬bad → x.entry p = some e → e.frame = j.source → 1 < (x.frame j.source).state.refs.length →
          j.target ≠ j.source →
          then_ (State.slotReady
            (((x.setFrame j.source
                { x.frame j.source with state := .held ((x.frame j.source).state.refs.erase p) }).setFrame j.target
                { x.frame j.target with state := .held [p] }).setEntry p
              (some { e with frame := j.target, copyPending := false })) j.waiters))) ∧
    ∀ requester, j.kind = .move requester →
      let kept := fun (code : Byte) =>
        let y := (((ended.clearMoving j.source).letGo j.target).slotReady j.waiters).tellRequester requester code j.source
        if (y.frame j.source).state = .held [] then y.letGo j.source else y
      ((ended.frame j.target).poisoned = true → j.target ≠ j.source → then_ (kept 0x14)) ∧
      ((ended.frame j.target).poisoned = false → bad → then_ (kept 0x33)) ∧
      ((ended.frame j.target).poisoned = false → ¬bad →
        let carried := ended.carry j
        (ended.scrub.discretionary < 256 →
          then_ ((((carried.clearMoving j.source).outOfService j.source true).slotReady j.waiters).tellRequester requester
            0x00 j.source)) ∧
        (256 ≤ ended.scrub.discretionary →
          then_ ((((carried.setFrame j.source
            { carried.frame j.source with moving := false, retirePending := false }).letGo j.source).slotReady
              j.waiters).tellRequester requester 0x31 j.source)))

/-- What a MOVE carries (R47, R87): every entry of the source's list names the target and keeps its flags, the target
becomes HELD with that list, and the source's is emptied; with an empty list the target is released instead. -/
def Obligations.MoveCarriesEntries : Prop :=
  ∀ (s : State) (j : CopyJob) (refs : List BackRef), (s.frame j.source).state = .held refs → refs.Nodup →
    j.source ≠ j.target → (∀ p, p ∈ refs ↔ ∃ e, s.entry p = some e ∧ e.frame = j.source) →
    (refs = [] → s.carry j = (s.letGo j.target).setFrame j.source (s.frame j.source)) ∧
    (refs ≠ [] →
      ∃ x : State, s.carry j = x ∧ x = { s with spaces := x.spaces, frames := x.frames } ∧
        (∀ p, x.entry p = (s.entry p).map fun e => if e.frame = j.source then { e with frame := j.target } else e) ∧
        x.frame j.target = { s.frame j.target with state := .held refs } ∧
        x.frame j.source = { s.frame j.source with state := .held [] } ∧
        (∀ f, f ≠ j.source → f ≠ j.target → x.frame f = s.frame f) ∧
        ∀ tp, (x.space tp).map (fun q => (q.size, q.owner, q.guest)) =
          (s.space tp).map fun q => (q.size, q.owner, q.guest))

/-- CHECK_COMPLETION (R95, R98, R100, R101, R107): the Frame Table's effects, the consequence of Table 5-2 by the
record as it then stands, the end of the visit or the reply to the CHECK request, and the next work. -/
def Obligations.CheckCompletes : Prop :=
  ∀ (s : State) (a f : FrameId) (errors : List ErrorEvent) (work : CheckWork),
    s.arbiter.current = some (.check a errors) → s.scrub.engine = .busy f work →
    let ended := State.commonEffects
      { s with arbiter := { s.arbiter with current := none }, scrub := { s.scrub with engine := .idle } }
      (if work = .walk then .scrub else .check) errors
    let r := ended.frame f
    let then_ := fun x : State =>
      exec .checkCompletion s = .next (State.finish (State.takeWork (match work with
        | .walk => { x with scrub := { x.scrub with
            walkTimer := if x.scrub.interval = 0 then .stopped else .running } }
        | .orphan => x
        | .request i tag =>
          State.repliedDeferred
            { x with scrub := { x.scrub with checkQueue := x.scrub.checkQueue.erase ⟨i, tag, f⟩ } } i 0x32 tag
            ([0x00] ++ be16 f.val ++
              [BitVec.ofNat 8 (errors.countP fun e => e.kind ≠ .uncorrectable),
               if errors.any fun e => e.kind = .uncorrectable then 1 else 0, BitVec.ofNat 8 (x.frame f).tally,
               (x.frame f).state.code,
               (if (x.frame f).poisoned then 1 else 0) ||| (if (x.frame f).retirePending then 2 else 0) |||
                 (if (x.frame f).moving then 4 else 0)]))))
    let pending := r.state.isHeld = true ∧ r.poisoned = false ∧ r.moving = false ∧ r.retirePending = true
    (r.state = .free → then_ (ended.resolveFree f)) ∧
    (r.state = .clearing ∨ r.state = .target → then_ ended) ∧
    (r.state = .retired → then_ (ended.setFrame f { r with retirePending := false })) ∧
    (r.state.isHeld = true → ¬pending → then_ ended) ∧
    (pending → 256 ≤ ended.scrub.discretionary → then_ (ended.setFrame f { r with retirePending := false })) ∧
    (pending → ended.scrub.discretionary < 256 → 8 ≤ ended.jobs.length ∨ ended.freeQueue = [] → then_ ended) ∧
    ∀ target rest, pending → ended.scrub.discretionary < 256 → ended.jobs.length < 8 →
      ended.freeQueue = target :: rest → target ≠ f →
      then_
        { (((ended.freeFalls rest).setFrame f { r with moving := true }).setFrame target
            { ended.frame target with state := .target }) with
          jobs := ended.jobs ++ [{ kind := .move none, source := f, target := target, waiters := [],
                                   phase := if ended.jobs = [] then .copying else .queued }]
          arbiter := if ended.jobs = [] ∧ .copyEngine ∉ ended.arbiter.waiting
            then { ended.arbiter with waiting := ended.arbiter.waiting ++ [.copyEngine] } else ended.arbiter }

/-! ### Errors and notices -/

/-- The common effects of one storage error (R19, R20). CORRECTED: the tally rises, holding at 15, the last error is
replaced, and retire-pending is set if the tally has reached the threshold on a frame not poisoned below the limit.
UNCORRECTABLE: the last error is replaced; a frame not yet poisoned is poisoned, loses retire-pending, and DATA_LOST
is raised on both links with the spaces of its list. -/
def Obligations.ErrorEffects : Prop :=
  ∀ (s : State) (finder : Finder) (f : FrameId) (w : WordId),
    let r := s.frame f
    (∀ bit, s.commonEffect finder { frame := f, word := w, kind := .corrected bit } =
      s.setFrame f { r with
        tally := if r.tally < 15 then r.tally + 1 else 15
        lastError := some { word := w, kind := .corrected bit, finder := finder }
        retirePending :=
          if s.scrub.threshold ≤ (if r.tally < 15 then r.tally + 1 else 15) ∧ r.poisoned = false ∧
            s.scrub.discretionary < 256 then true else r.retirePending }) ∧
    (r.poisoned = true → s.commonEffect finder { frame := f, word := w, kind := .uncorrectable } =
      s.setFrame f { r with lastError := some { word := w, kind := .uncorrectable, finder := finder } }) ∧
    ∀ spaces : BitVec 16, (∀ sp : SpaceId, spaces.getLsbD sp.val = true ↔ ∃ p ∈ r.state.refs, p.1 = sp) →
      r.poisoned = false → s.commonEffect finder { frame := f, word := w, kind := .uncorrectable } =
        (s.setFrame f { r with
          lastError := some { word := w, kind := .uncorrectable, finder := finder }, poisoned := true,
          retirePending := false }).raiseBoth (.dataLost f spaces 1)

/-- Raises (R178, R180, R181): a DOWN link ignores a raise; else it is appended if its class is not pending, and
merged by Table 9-3 in its place if it is. SLOT_READY goes to each link that has a waiter, naming its slots (R90). -/
def Obligations.RaisesMerge : Prop :=
  (∀ (s : State) (i : LinkId) (n : Notice), (s.link i).state = .down → s.raiseOn i n = s) ∧
  (∀ (s : State) (i : LinkId) (n : Notice), (s.link i).state ≠ .down →
    (∀ p ∈ (s.link i).notices, p.classCode ≠ n.classCode) →
    s.raiseOn i n = s.onLink i fun l => { l with notices := l.notices ++ [n] }) ∧
  (∀ (s : State) (i : LinkId) (n p : Notice) (before after : List Notice), (s.link i).state ≠ .down →
    (s.link i).notices = before ++ p :: after → p.classCode = n.classCode →
    (∀ q ∈ before ++ after, q.classCode ≠ n.classCode) →
    s.raiseOn i n = s.onLink i fun l => { l with notices := before ++ (p.merge n :: after) }) ∧
  (∀ (st st' : SupplyState) (k k' : Nat), (Notice.frameSupply st k).merge (.frameSupply st' k') = .frameSupply st' k') ∧
  (∀ a b : BitVec 4, (Notice.slotReady a).merge (.slotReady b) = .slotReady (a ||| b) ∧
    (Notice.slotExpired a).merge (.slotExpired b) = .slotExpired (a ||| b)) ∧
  (∀ a b : BitVec 16, (Notice.spaceChanged a).merge (.spaceChanged b) = .spaceChanged (a ||| b) ∧
    (Notice.scrubPass a).merge (.scrubPass b) = .scrubPass b) ∧
  (∀ (f g : FrameId) (k k' : Nat), (Notice.frameRetired f k).merge (.frameRetired g k') = .frameRetired g k') ∧
  (∀ (f g : FrameId) (a b : BitVec 16) (k : Nat),
    (Notice.dataLost f a k).merge (.dataLost g b 1) = .dataLost g (a ||| b) (if k < 255 then k + 1 else 255)) ∧
  ∀ (s : State) (ws : List SlotRef) (set : LinkId → BitVec 4),
    (∀ i (k : SlotId), (set i).getLsbD k.val = true ↔ (i, k) ∈ ws) →
    let on := fun (x : State) (i : LinkId) => if set i = 0 then x else x.raiseOn i (.slotReady (set i))
    s.slotReady ws = on (on s .link0) .link1

/-- The fields of messages (R189, R190, R197): numbers most significant byte first, sets and mark lists by bit, the
payload of each notice class, every code of Table 10-2, and the status codes of halt causes and final statuses (Table
10-14). -/
def Obligations.FieldEncodings : Prop :=
  (∀ n, n < 65536 → ∃ a b, be16 n = [a, b] ∧ a.toNat * 256 + b.toNat = n) ∧
  (∀ n, n < 16777216 → ∃ a b c, be24 n = [a, b, c] ∧ a.toNat * 65536 + b.toNat * 256 + c.toNat = n) ∧
  (∀ (k : SlotId) (j : Nat), j < 4 → ((slotSet k).getLsbD j = true ↔ j = k.val)) ∧
  (∀ (sp : SpaceId) (j : Nat), j < 16 → ((spaceSet sp).getLsbD j = true ↔ j = sp.val)) ∧
  (∀ marks : List Bool, (markBytes marks).length = (marks.length + 7) / 8 ∧
    ∀ (m k : Nat) (b : Byte), k < 8 → (markBytes marks)[m]? = some b → b.getLsbD k = marks.getD (8 * m + k) false) ∧
  (∀ (st : SupplyState) (n : Nat), (Notice.frameSupply st n).payload = [1, st.code] ++ be16 n) ∧
  (∀ a : BitVec 4, (Notice.slotReady a).payload = [2, a.setWidth 8] ∧
    (Notice.slotExpired a).payload = [3, a.setWidth 8]) ∧
  (∀ a : BitVec 16, (Notice.spaceChanged a).payload = [4, a.extractLsb' 8 8, a.extractLsb' 0 8] ∧
    (Notice.scrubPass a).payload = [7, a.extractLsb' 8 8, a.extractLsb' 0 8]) ∧
  (∀ (f : FrameId) (n : Nat), (Notice.frameRetired f n).payload = [5] ++ be16 f.val ++ be16 n) ∧
  (∀ (f : FrameId) (a : BitVec 16) (n : Nat), (Notice.dataLost f a n).payload =
    [6] ++ be16 f.val ++ [a.extractLsb' 8 8, a.extractLsb' 0 8, BitVec.ofNat 8 n]) ∧
  [LinkState.down, .up, .dormant].map LinkState.code = [0, 1, 2] ∧
  (∀ last : Option LastOutcome, (Slot.idle last).code = 0) ∧
  (∀ t : Transfer, (t.phase = .data → (Slot.active t).code = 1) ∧ (t.phase = .final → (Slot.active t).code = 2) ∧
    ∀ cause, t.phase = .halted cause → (Slot.active t).code = 3) ∧
  ([Direction.read, .write].map Direction.code = [0, 1] ∧ ∀ (b : Byte) d, direction? b = some d ↔ b = d.code) ∧
  [LinkId.link0, .link1].map ownerCode = [0, 1] ∧
  (∀ (b : Byte) r, right? b = some r ↔ b = Right.code r) ∧
  [SupplyState.normal, .low].map SupplyState.code = [0, 1] ∧
  [Right.none, .read, .write].map Right.code = [0, 1, 2] ∧
  (∀ refs, [FrameState.clearing, .free, .held refs, .target, .retired].map FrameState.code = [0, 1, 2, 3, 4]) ∧
  (∀ bit, [ErrorKind.corrected bit, .uncorrectable].map ErrorKind.code = [1, 2]) ∧
  [Finder.scrub, .check, .read, .merge, .copy].map Finder.code = [1, 2, 3, 4, 5] ∧
  [HaltCause.access, .notMapped, .writeProtected, .noFrame, .dataLost, .overrun, .sequence, .spaceGone].map HaltCause.code =
    [0x22, 0x24, 0x26, 0x30, 0x33, 0x42, 0x44, 0x45] ∧
  (∀ p requester, [none, some (JobKind.privateCopy p), some (.move requester)].map waiterCode = [0, 1, 2]) ∧
  [Timer.stopped, .running, .paused].map Timer.code = [0, 1, 2] ∧
  ([false, true].map flag = [0, 1] ∧ ∀ (b : Byte) on, flag? b = some on ↔ b = flag on) ∧
  [FinalStatus.short, .done, .expired].map FinalStatus.code = [0x02, 0x03, 0x46] ∧
  ∀ cause, (FinalStatus.halted cause).code = cause.code

/-! ### The Frame Store -/

/-- The arbiter (R10, R11): a busy store grants nothing; an idle one grants the first waiting client after the
last-served in the ring Link 0, Link 1, Copy Engine, Clearer, Scrubber; the grant of a clear, a copy or a check
occupies the store, its effect on the stored words being made then (log 11). -/
def Obligations.ArbiterServesRing : Prop :=
  let ring : List Client := [.dataPath .link0, .dataPath .link1, .copyEngine, .clearer, .scrubber]
  (∀ s : State, s.arbiter.current.isSome = true ∨ s.arbiter.waiting = [] → s.endEvent = s.settle) ∧
  (∀ (a : Arbiter) (n d : Nat) (c : Client), n < 5 → 1 ≤ d → d ≤ 5 → ring[n]? = some a.lastServed →
    ring[(n + d) % 5]? = some c → c ∈ a.waiting →
    (∀ e c', 1 ≤ e → e < d → ring[(n + e) % 5]? = some c' → c' ∉ a.waiting) → a.next = some c) ∧
  (∀ (s : State) (c : Client), s.grant c =
    State.runAccess { s with arbiter := { s.arbiter with
      waiting := s.arbiter.waiting.filter fun d => d ≠ c, lastServed := c } } c) ∧
  (∀ (s : State) (f : FrameId) (rest : List FrameId), s.clearQueue = f :: rest →
    s.runAccess .clearer =
      { s with memory := s.memory.clearFrame f, arbiter := { s.arbiter with current := some (.clear f) } }) ∧
  (∀ (s : State) (j : CopyJob) (rest : List CopyJob), s.jobs = j :: rest →
    s.runAccess .copyEngine =
      { s with
        memory := (s.memory.frameCopy j.source j.target).1
        arbiter := { s.arbiter with
          current := some (.copy j.source j.target (s.memory.errorsIn (frameWords j.source))) } }) ∧
  (∀ (s : State) (f : FrameId) (work : CheckWork), s.scrub.engine = .busy f work →
    s.runAccess .scrubber =
      { s with
        memory := (s.memory.frameCheck f).1
        arbiter := { s.arbiter with current := some (.check f (s.memory.errorsIn (frameWords f))) } }) ∧
  ∀ s : State, s.arbiter.current = none → (∀ i, (s.link i).canTake = false) → ∀ c, s.arbiter.next = some c →
    (∀ i, c ≠ .dataPath i) → (s.grant c).arbiter.current.isSome = true → s.endEvent = (s.grant c).settle

/-- STORAGE_FAULT and reading (R1, R3): one bit of one stored word changes and nothing else; a word whose differing
bits are none reads CLEAN, one CORRECTED at that bit, two or more UNCORRECTABLE; the code is abstracted to that count
(log 1). -/
def Obligations.StorageFaultStrikes : Prop :=
  (∀ (s : State) (f : FrameId) (w : WordId) (b : BitId),
    exec (.storageFault f w b) s = .next { s with memory := s.memory.strike f w b }) ∧
  (∀ (m : Memory) (f g : FrameId) (w v : WordId) (b : BitId) (o : Nat),
    (m.strike f w b).readByte g o = m.readByte g o ∧
    (m.strike f w b).damageOf g v =
      if g = f ∧ v = w then m.damageOf f w ^^^ BitVec.twoPow 72 b.val else m.damageOf g v) ∧
  ∀ (m : Memory) (f : FrameId) (w : WordId),
    (m.damageOf f w = 0 → m.errorOf f w = none) ∧
    (∀ b : BitId, m.damageOf f w = BitVec.twoPow 72 b.val → m.errorOf f w = some (.corrected b)) ∧
    ((∃ b c : BitId, b ≠ c ∧ (m.damageOf f w).getLsbD b.val = true ∧ (m.damageOf f w).getLsbD c.val = true) →
      m.errorOf f w = some .uncorrectable)

/-- The whole-frame accesses and write-backs (R2, R3, R7–R9): a clear leaves 512 zero bytes and sound words; a copy
with no UNCORRECTABLE word gives the target the source's bytes with sound words, and else leaves the target; every
CORRECTED word read is made sound. The segment accesses (R4–R6) of 1 to 64 bytes in one frame or two: a read delivers the
named bytes in order, or none with an UNCORRECTABLE word; a write with an UNCORRECTABLE merge word writes no byte and
only makes its CORRECTED merge words sound, and else each byte named takes its new value and every touched word is sound.
The words touched, and those read for merge, come in ascending order. No other byte or word of the store changes. -/
def Obligations.StoreAccesses : Prop :=
  (∀ (m : Memory) (f g h : FrameId) (o : Nat) (w : WordId), o < 512 →
     (m.clearFrame f).readByte g o = (if g = f then 0 else m.readByte g o) ∧
     (m.clearFrame f).damageOf g w = (if g = f then 0 else m.damageOf g w) ∧
     (m.frameCheck f).1.readByte g o = m.readByte g o ∧
     (m.frameCheck f).1.damageOf g w =
       (if g = f ∧ ∃ b, m.errorOf f w = some (.corrected b) then 0 else m.damageOf g w) ∧
     (f ≠ h →
       let bad := ∃ v, m.errorOf f v = some .uncorrectable
       (m.frameCopy f h).1.readByte g o = (if g = h ∧ ¬bad then m.readByte f o else m.readByte g o) ∧
       (m.frameCopy f h).1.damageOf g w =
         (if g = h ∧ ¬bad then 0
          else if g = f ∧ ∃ b, m.errorOf f w = some (.corrected b) then 0 else m.damageOf g w))) ∧
  (∀ (m : Memory) (words : List (FrameId × WordId)) (e : ErrorEvent),
     e ∈ m.errorsIn words ↔ (e.frame, e.word) ∈ words ∧ m.errorOf e.frame e.word = some e.kind) ∧
  (∀ p : Part,
     p.words.Pairwise (fun a b => a.2 < b.2) ∧ p.mergeWords.Pairwise (fun a b => a.2 < b.2) ∧
     ∀ (g : FrameId) (v : WordId),
       ((g, v) ∈ p.words ↔ g = p.frame ∧ 8 * v.val < p.offset + p.count ∧ p.offset < 8 * v.val + 8) ∧
       ((g, v) ∈ p.mergeWords ↔ (g, v) ∈ p.words ∧ ¬(p.offset ≤ 8 * v.val ∧ 8 * v.val + 8 ≤ p.offset + p.count))) ∧
  ∀ (m : Memory) (first second : FrameId) (offset count : Nat), offset < 512 → 1 ≤ count → count ≤ 64 →
    let parts := segmentParts first second offset count
    let touches := segmentTouches first second offset count
    let merges := segmentMerges first second offset count
    (let x := m.segmentRead parts
     let bad := ∃ g v, touches g v ∧ m.errorOf g v = some .uncorrectable
     (∀ g o, o < 512 → x.1.readByte g o = m.readByte g o) ∧
     (∀ g w, (touches g w → (∃ b, m.errorOf g w = some (.corrected b)) → x.1.damageOf g w = 0) ∧
       (¬(touches g w ∧ ∃ b, m.errorOf g w = some (.corrected b)) → x.1.damageOf g w = m.damageOf g w)) ∧
     x.2.1 = m.errorsIn (parts.flatMap Part.words) ∧
     (bad → x.2.2 = none) ∧
     (¬bad → ∃ data, x.2.2 = some data ∧ data.length = count ∧
       ∀ j, j < count → data[j]? = some
         (if offset + j < 512 then m.readByte first (offset + j) else m.readByte second (offset + j - 512)))) ∧
    ∀ bytes : List Byte, bytes.length = count →
      let x := m.segmentWrite parts bytes
      let bad := ∃ g v, merges g v ∧ m.errorOf g v = some .uncorrectable
      x.2.1 = m.errorsIn (parts.flatMap Part.mergeWords) ∧
      (bad → x.2.2 = false ∧ (∀ g o, o < 512 → x.1.readByte g o = m.readByte g o) ∧
        ∀ g w, (merges g w → (∃ b, m.errorOf g w = some (.corrected b)) → x.1.damageOf g w = 0) ∧
          (¬(merges g w ∧ ∃ b, m.errorOf g w = some (.corrected b)) → x.1.damageOf g w = m.damageOf g w)) ∧
      (¬bad → x.2.2 = true ∧
        (∀ g o, o < 512 →
          (g = first → offset ≤ o → o < offset + count → x.1.readByte g o = bytes.getD (o - offset) 0) ∧
          (g = second → 512 + o < offset + count → x.1.readByte g o = bytes.getD (512 + o - offset) 0) ∧
          (¬(g = first ∧ offset ≤ o ∧ o < offset + count) → ¬(g = second ∧ 512 + o < offset + count) →
            x.1.readByte g o = m.readByte g o)) ∧
        ∀ g w, (touches g w → x.1.damageOf g w = 0) ∧ (¬touches g w → x.1.damageOf g w = m.damageOf g w))

end
end

