-- ==== Sys2Proof/Laws/State.lean ====
section
/-! SUPPORT. What each update of the state leaves: one small lemma for each field, so that no proof unfolds an update. -/

namespace Sys2Proof.Machine

variable (s : State) (i j : LinkId) (l : Link) (change : Link → Link)

/-! ### Links -/

@[simp] theorem link_setLink_same : (s.setLink i l).link i = l := by cases i <;> rfl

@[simp] theorem link_setLink_other (h : j ≠ i) : (s.setLink i l).link j = s.link j := by
  cases i <;> cases j <;> first | rfl | exact absurd rfl h

@[simp] theorem link_onLink_same : (s.onLink i change).link i = change (s.link i) := by cases i <;> rfl

@[simp] theorem link_onLink_other (h : j ≠ i) : (s.onLink i change).link j = s.link j := by
  cases i <;> cases j <;> first | rfl | exact absurd rfl h

theorem link_onLink : (s.onLink i change).link j = if j = i then change (s.link j) else s.link j := by
  cases i <;> cases j <;> rfl

theorem other_ne : i.other ≠ i := by cases i <;> decide

theorem eq_or_other : j = i ∨ j = i.other := by cases i <;> cases j <;> decide

theorem link_def0 : s.link .link0 = s.link0 := rfl

theorem link_def1 : s.link .link1 = s.link1 := rfl

theorem onLink_onLink (c d : Link → Link) : (s.onLink i c).onLink i d = s.onLink i fun l => d (c l) := by
  cases i <;> rfl

theorem onLink_congr (c d : Link → Link) (h : c (s.link i) = d (s.link i)) : s.onLink i c = s.onLink i d := by
  unfold State.onLink; rw [h]

theorem onLink_id (c : Link → Link) (h : c (s.link i) = s.link i) : s.onLink i c = s := by
  unfold State.onLink; rw [h]; cases i <;> rfl

theorem onLink_comm (c d : Link → Link) (h : i ≠ j) : (s.onLink i c).onLink j d = (s.onLink j d).onLink i c := by
  cases i <;> cases j <;> first | rfl | exact absurd rfl h

/-- Two states that agree outside the links, and on both links, are equal. -/
theorem eq_of_links (a b : State) (h0 : a.link .link0 = b.link .link0) (h1 : a.link .link1 = b.link .link1)
    (h : { a with link0 := b.link0, link1 := b.link1 } = b) : a = b := by
  obtain ⟨⟩ := a; obtain ⟨⟩ := b
  simp only [State.link] at h0 h1
  simp only [State.mk.injEq] at h ⊢
  simp_all

/-! ### Updates of a link leave every other block -/

@[simp] theorem setLink_resetLow : (s.setLink i l).resetLow = s.resetLow := by cases i <;> rfl

@[simp] theorem setLink_memory : (s.setLink i l).memory = s.memory := by cases i <;> rfl

@[simp] theorem setLink_arbiter : (s.setLink i l).arbiter = s.arbiter := by cases i <;> rfl

@[simp] theorem setLink_frames : (s.setLink i l).frames = s.frames := by cases i <;> rfl

@[simp] theorem setLink_clearQueue : (s.setLink i l).clearQueue = s.clearQueue := by cases i <;> rfl

@[simp] theorem setLink_freeQueue : (s.setLink i l).freeQueue = s.freeQueue := by cases i <;> rfl

@[simp] theorem setLink_supply : (s.setLink i l).supply = s.supply := by cases i <;> rfl

@[simp] theorem setLink_lowMark : (s.setLink i l).lowMark = s.lowMark := by cases i <;> rfl

@[simp] theorem setLink_waiters : (s.setLink i l).waiters = s.waiters := by cases i <;> rfl

@[simp] theorem setLink_spaces : (s.setLink i l).spaces = s.spaces := by cases i <;> rfl

@[simp] theorem setLink_jobs : (s.setLink i l).jobs = s.jobs := by cases i <;> rfl

@[simp] theorem setLink_scrub : (s.setLink i l).scrub = s.scrub := by cases i <;> rfl

@[simp] theorem setLink_freeIndex : (s.setLink i l).freeIndex = s.freeIndex := by cases i <;> rfl

@[simp] theorem setLink_pending : (s.setLink i l).pending = s.pending := by cases i <;> rfl

@[simp] theorem onLink_resetLow : (s.onLink i change).resetLow = s.resetLow := by cases i <;> rfl

@[simp] theorem onLink_memory : (s.onLink i change).memory = s.memory := by cases i <;> rfl

@[simp] theorem onLink_arbiter : (s.onLink i change).arbiter = s.arbiter := by cases i <;> rfl

@[simp] theorem onLink_frames : (s.onLink i change).frames = s.frames := by cases i <;> rfl

@[simp] theorem onLink_clearQueue : (s.onLink i change).clearQueue = s.clearQueue := by cases i <;> rfl

@[simp] theorem onLink_freeQueue : (s.onLink i change).freeQueue = s.freeQueue := by cases i <;> rfl

@[simp] theorem onLink_supply : (s.onLink i change).supply = s.supply := by cases i <;> rfl

@[simp] theorem onLink_lowMark : (s.onLink i change).lowMark = s.lowMark := by cases i <;> rfl

@[simp] theorem onLink_waiters : (s.onLink i change).waiters = s.waiters := by cases i <;> rfl

@[simp] theorem onLink_spaces : (s.onLink i change).spaces = s.spaces := by cases i <;> rfl

@[simp] theorem onLink_jobs : (s.onLink i change).jobs = s.jobs := by cases i <;> rfl

@[simp] theorem onLink_scrub : (s.onLink i change).scrub = s.scrub := by cases i <;> rfl

@[simp] theorem onLink_freeIndex : (s.onLink i change).freeIndex = s.freeIndex := by cases i <;> rfl

@[simp] theorem onLink_pending : (s.onLink i change).pending = s.pending := by cases i <;> rfl

/-! ### Frame records -/

variable (f g : FrameId) (r : FrameRecord)

@[simp] theorem frame_setFrame_same : (s.setFrame f r).frame f = r := by
  simp [State.frame, State.setFrame, Vector.get_eq_getElem]

@[simp] theorem frame_setFrame_other (h : g ≠ f) : (s.setFrame f r).frame g = s.frame g := by
  have : f.val ≠ g.val := fun e => h (Fin.ext e.symm)
  simp [State.frame, State.setFrame, Vector.get_eq_getElem, Vector.getElem_set_ne, this]

theorem frame_setFrame : (s.setFrame f r).frame g = if g = f then r else s.frame g := by
  by_cases h : g = f
  · subst h; simp
  · simp [h]

@[simp] theorem frame_setLink : (s.setLink i l).frame f = s.frame f := by cases i <;> rfl

@[simp] theorem frame_onLink : (s.onLink i change).frame f = s.frame f := by cases i <;> rfl

@[simp] theorem link_setFrame : (s.setFrame f r).link i = s.link i := by cases i <;> rfl

@[simp] theorem setFrame_resetLow : (s.setFrame f r).resetLow = s.resetLow := rfl

@[simp] theorem setFrame_memory : (s.setFrame f r).memory = s.memory := rfl

@[simp] theorem setFrame_arbiter : (s.setFrame f r).arbiter = s.arbiter := rfl

@[simp] theorem setFrame_clearQueue : (s.setFrame f r).clearQueue = s.clearQueue := rfl

@[simp] theorem setFrame_freeQueue : (s.setFrame f r).freeQueue = s.freeQueue := rfl

@[simp] theorem setFrame_supply : (s.setFrame f r).supply = s.supply := rfl

@[simp] theorem setFrame_lowMark : (s.setFrame f r).lowMark = s.lowMark := rfl

@[simp] theorem setFrame_waiters : (s.setFrame f r).waiters = s.waiters := rfl

@[simp] theorem setFrame_spaces : (s.setFrame f r).spaces = s.spaces := rfl

@[simp] theorem setFrame_jobs : (s.setFrame f r).jobs = s.jobs := rfl

@[simp] theorem setFrame_scrub : (s.setFrame f r).scrub = s.scrub := rfl

@[simp] theorem setFrame_freeIndex : (s.setFrame f r).freeIndex = s.freeIndex := rfl

@[simp] theorem setFrame_pending : (s.setFrame f r).pending = s.pending := rfl

/-! ### Spaces and map entries -/

variable (sp tp : SpaceId) (rec : Option SpaceRecord) (p q : BackRef) (e : Option MapEntry)

@[simp] theorem space_setSpace_same : (s.setSpace sp rec).space sp = rec := by
  simp [State.space, State.setSpace, Vector.get_eq_getElem]

@[simp] theorem space_setSpace_other (h : tp ≠ sp) : (s.setSpace sp rec).space tp = s.space tp := by
  have : sp.val ≠ tp.val := fun e => h (Fin.ext e.symm)
  simp [State.space, State.setSpace, Vector.get_eq_getElem, Vector.getElem_set_ne, this]

theorem space_setSpace : (s.setSpace sp rec).space tp = if tp = sp then rec else s.space tp := by
  by_cases h : tp = sp
  · subst h; simp
  · simp [h]

@[simp] theorem link_setSpace : (s.setSpace sp rec).link i = s.link i := by cases i <;> rfl

@[simp] theorem frame_setSpace : (s.setSpace sp rec).frame f = s.frame f := rfl

@[simp] theorem space_setLink : (s.setLink i l).space sp = s.space sp := by cases i <;> rfl

@[simp] theorem space_onLink : (s.onLink i change).space sp = s.space sp := by cases i <;> rfl

@[simp] theorem space_setFrame : (s.setFrame f r).space sp = s.space sp := rfl

@[simp] theorem entry_setLink : (s.setLink i l).entry p = s.entry p := by cases i <;> rfl

@[simp] theorem entry_onLink : (s.onLink i change).entry p = s.entry p := by cases i <;> rfl

@[simp] theorem entry_setFrame : (s.setFrame f r).entry p = s.entry p := rfl

@[simp] theorem setSpace_resetLow : (s.setSpace sp rec).resetLow = s.resetLow := rfl

@[simp] theorem setSpace_memory : (s.setSpace sp rec).memory = s.memory := rfl

@[simp] theorem setSpace_arbiter : (s.setSpace sp rec).arbiter = s.arbiter := rfl

@[simp] theorem setSpace_frames : (s.setSpace sp rec).frames = s.frames := rfl

@[simp] theorem setSpace_clearQueue : (s.setSpace sp rec).clearQueue = s.clearQueue := rfl

@[simp] theorem setSpace_freeQueue : (s.setSpace sp rec).freeQueue = s.freeQueue := rfl

@[simp] theorem setSpace_supply : (s.setSpace sp rec).supply = s.supply := rfl

@[simp] theorem setSpace_lowMark : (s.setSpace sp rec).lowMark = s.lowMark := rfl

@[simp] theorem setSpace_waiters : (s.setSpace sp rec).waiters = s.waiters := rfl

@[simp] theorem setSpace_jobs : (s.setSpace sp rec).jobs = s.jobs := rfl

@[simp] theorem setSpace_scrub : (s.setSpace sp rec).scrub = s.scrub := rfl

@[simp] theorem setSpace_freeIndex : (s.setSpace sp rec).freeIndex = s.freeIndex := rfl

@[simp] theorem setSpace_pending : (s.setSpace sp rec).pending = s.pending := rfl

/-- An entry set in a LIVE space reads back. -/
theorem entry_setEntry_same (h : (s.space p.1).isSome) : (s.setEntry p e).entry p = e := by
  unfold State.setEntry
  cases hs : s.space p.1 with
  | none => simp [hs] at h
  | some rec => simp [State.entry, Vector.get_eq_getElem]

/-- A present page's space is LIVE. -/
theorem space_isSome_of_entry (h : (s.entry p).isSome) : (s.space p.1).isSome := by
  unfold State.entry at h
  cases hs : s.space p.1 with
  | none => simp [hs] at h
  | some rec => rfl

/-- Setting one page's entry leaves every other. -/
@[simp] theorem entry_setEntry_other (h : q ≠ p) : (s.setEntry p e).entry q = s.entry q := by
  unfold State.setEntry
  cases hs : s.space p.1 with
  | none => rfl
  | some rec =>
    obtain ⟨a, b⟩ := p; obtain ⟨c, d⟩ := q
    by_cases hc : c = a
    · subst hc
      have hd : b.val ≠ d.val := fun x => h (by rw [Fin.ext x])
      simp only [State.entry, space_setSpace_same, hs, Option.bind_some, Vector.get_eq_getElem]
      rw [Vector.getElem_set_ne _ _ hd]
    · simp [State.entry, hc]

@[simp] theorem link_setEntry : (s.setEntry p e).link i = s.link i := by
  unfold State.setEntry; split <;> simp

@[simp] theorem frame_setEntry : (s.setEntry p e).frame f = s.frame f := by
  unfold State.setEntry; split <;> simp

@[simp] theorem setEntry_frames : (s.setEntry p e).frames = s.frames := by
  unfold State.setEntry; split <;> rfl

@[simp] theorem setEntry_resetLow : (s.setEntry p e).resetLow = s.resetLow := by unfold State.setEntry; split <;> rfl

@[simp] theorem setEntry_memory : (s.setEntry p e).memory = s.memory := by unfold State.setEntry; split <;> rfl

@[simp] theorem setEntry_arbiter : (s.setEntry p e).arbiter = s.arbiter := by unfold State.setEntry; split <;> rfl

@[simp] theorem setEntry_clearQueue : (s.setEntry p e).clearQueue = s.clearQueue := by unfold State.setEntry; split <;> rfl

@[simp] theorem setEntry_freeQueue : (s.setEntry p e).freeQueue = s.freeQueue := by unfold State.setEntry; split <;> rfl

@[simp] theorem setEntry_supply : (s.setEntry p e).supply = s.supply := by unfold State.setEntry; split <;> rfl

@[simp] theorem setEntry_lowMark : (s.setEntry p e).lowMark = s.lowMark := by unfold State.setEntry; split <;> rfl

@[simp] theorem setEntry_waiters : (s.setEntry p e).waiters = s.waiters := by unfold State.setEntry; split <;> rfl

@[simp] theorem setEntry_jobs : (s.setEntry p e).jobs = s.jobs := by unfold State.setEntry; split <;> rfl

@[simp] theorem setEntry_scrub : (s.setEntry p e).scrub = s.scrub := by unfold State.setEntry; split <;> rfl

@[simp] theorem setEntry_freeIndex : (s.setEntry p e).freeIndex = s.freeIndex := by unfold State.setEntry; split <;> rfl

@[simp] theorem setEntry_pending : (s.setEntry p e).pending = s.pending := by unfold State.setEntry; split <;> rfl

/-- A space keeps all but its page map when an entry is set. -/
theorem space_setEntry_isSome : ((s.setEntry p e).space sp).isSome = (s.space sp).isSome := by
  unfold State.setEntry
  cases hs : s.space p.1 with
  | none => rfl
  | some rec =>
    by_cases h : sp = p.1
    · subst h; simp [hs]
    · simp [h]

/-! ### Slots -/

variable (k m : SlotRef) (slot : Slot)

@[simp] theorem slot_setSlot_same : (s.setSlot k slot).slot k = slot := by
  simp [State.slot, State.setSlot, Vector.get_eq_getElem]

@[simp] theorem slot_setSlot_other (h : m ≠ k) : (s.setSlot k slot).slot m = s.slot m := by
  obtain ⟨a, b⟩ := k; obtain ⟨c, d⟩ := m
  by_cases hc : c = a
  · subst hc
    have hd : b.val ≠ d.val := fun x => h (by rw [Fin.ext x])
    simp only [State.slot, State.setSlot, link_onLink_same, Vector.get_eq_getElem]
    rw [Vector.getElem_set_ne _ _ hd]
  · simp [State.slot, State.setSlot, hc]

@[simp] theorem frame_setSlot : (s.setSlot k slot).frame f = s.frame f := by simp [State.setSlot]

@[simp] theorem space_setSlot : (s.setSlot k slot).space sp = s.space sp := by simp [State.setSlot]

@[simp] theorem entry_setSlot : (s.setSlot k slot).entry p = s.entry p := by simp [State.setSlot]

@[simp] theorem setSlot_resetLow : (s.setSlot k slot).resetLow = s.resetLow := by simp [State.setSlot]

@[simp] theorem setSlot_memory : (s.setSlot k slot).memory = s.memory := by simp [State.setSlot]

@[simp] theorem setSlot_arbiter : (s.setSlot k slot).arbiter = s.arbiter := by simp [State.setSlot]

@[simp] theorem setSlot_frames : (s.setSlot k slot).frames = s.frames := by simp [State.setSlot]

@[simp] theorem setSlot_clearQueue : (s.setSlot k slot).clearQueue = s.clearQueue := by simp [State.setSlot]

@[simp] theorem setSlot_freeQueue : (s.setSlot k slot).freeQueue = s.freeQueue := by simp [State.setSlot]

@[simp] theorem setSlot_supply : (s.setSlot k slot).supply = s.supply := by simp [State.setSlot]

@[simp] theorem setSlot_lowMark : (s.setSlot k slot).lowMark = s.lowMark := by simp [State.setSlot]

@[simp] theorem setSlot_waiters : (s.setSlot k slot).waiters = s.waiters := by simp [State.setSlot]

@[simp] theorem setSlot_spaces : (s.setSlot k slot).spaces = s.spaces := by simp [State.setSlot]

@[simp] theorem setSlot_jobs : (s.setSlot k slot).jobs = s.jobs := by simp [State.setSlot]

@[simp] theorem setSlot_scrub : (s.setSlot k slot).scrub = s.scrub := by simp [State.setSlot]

@[simp] theorem setSlot_freeIndex : (s.setSlot k slot).freeIndex = s.freeIndex := by simp [State.setSlot]

@[simp] theorem setSlot_pending : (s.setSlot k slot).pending = s.pending := by simp [State.setSlot]

/-! ### Notices and messages -/

variable (n : Notice) (o : Outgoing)

/-- What raising a notice on one link does to a link (R180). -/
theorem link_raiseOn : (s.raiseOn i n).link j =
    if j = i ∧ (s.link j).state ≠ .down then { s.link j with notices := raiseInto (s.link j).notices n } else s.link j := by
  unfold State.raiseOn
  rw [link_onLink]
  by_cases h : j = i
  · by_cases hd : (s.link j).state = .down <;> simp_all
  · simp [h]

/-- What raising a notice on both links does to a link (R178, R180). -/
theorem link_raiseBoth : (s.raiseBoth n).link j =
    if (s.link j).state = .down then s.link j
    else { s.link j with notices := raiseInto (s.link j).notices n } := by
  unfold State.raiseBoth
  rw [link_raiseOn, link_raiseOn]
  cases j <;> simp

@[simp] theorem frame_raiseOn : (s.raiseOn i n).frame f = s.frame f := by simp [State.raiseOn]

@[simp] theorem frame_raiseBoth : (s.raiseBoth n).frame f = s.frame f := by simp [State.raiseBoth]

@[simp] theorem space_raiseOn : (s.raiseOn i n).space sp = s.space sp := by simp [State.raiseOn]

@[simp] theorem space_raiseBoth : (s.raiseBoth n).space sp = s.space sp := by simp [State.raiseBoth]

@[simp] theorem entry_raiseOn : (s.raiseOn i n).entry p = s.entry p := by simp [State.raiseOn]

@[simp] theorem entry_raiseBoth : (s.raiseBoth n).entry p = s.entry p := by simp [State.raiseBoth]

@[simp] theorem slot_raiseOn : (s.raiseOn i n).slot k = s.slot k := by
  unfold State.slot; rw [link_raiseOn]; split <;> rfl

@[simp] theorem slot_raiseBoth : (s.raiseBoth n).slot k = s.slot k := by simp [State.raiseBoth]

@[simp] theorem link_enqueue_same : (s.enqueue i o).link i = { s.link i with queue := (s.link i).queue ++ [o] } := by
  simp [State.enqueue]

@[simp] theorem link_enqueue_other (h : j ≠ i) : (s.enqueue i o).link j = s.link j := by simp [State.enqueue, h]

@[simp] theorem frame_enqueue : (s.enqueue i o).frame f = s.frame f := by simp [State.enqueue]

@[simp] theorem space_enqueue : (s.enqueue i o).space sp = s.space sp := by simp [State.enqueue]

@[simp] theorem entry_enqueue : (s.enqueue i o).entry p = s.entry p := by simp [State.enqueue]

@[simp] theorem slot_enqueue : (s.enqueue i o).slot k = s.slot k := by
  unfold State.slot State.enqueue; rw [link_onLink]; split <;> rfl

@[simp] theorem raiseOn_resetLow : (s.raiseOn i n).resetLow = s.resetLow := by simp [State.raiseOn]

@[simp] theorem raiseOn_memory : (s.raiseOn i n).memory = s.memory := by simp [State.raiseOn]

@[simp] theorem raiseOn_arbiter : (s.raiseOn i n).arbiter = s.arbiter := by simp [State.raiseOn]

@[simp] theorem raiseOn_frames : (s.raiseOn i n).frames = s.frames := by simp [State.raiseOn]

@[simp] theorem raiseOn_clearQueue : (s.raiseOn i n).clearQueue = s.clearQueue := by simp [State.raiseOn]

@[simp] theorem raiseOn_freeQueue : (s.raiseOn i n).freeQueue = s.freeQueue := by simp [State.raiseOn]

@[simp] theorem raiseOn_supply : (s.raiseOn i n).supply = s.supply := by simp [State.raiseOn]

@[simp] theorem raiseOn_lowMark : (s.raiseOn i n).lowMark = s.lowMark := by simp [State.raiseOn]

@[simp] theorem raiseOn_waiters : (s.raiseOn i n).waiters = s.waiters := by simp [State.raiseOn]

@[simp] theorem raiseOn_spaces : (s.raiseOn i n).spaces = s.spaces := by simp [State.raiseOn]

@[simp] theorem raiseOn_jobs : (s.raiseOn i n).jobs = s.jobs := by simp [State.raiseOn]

@[simp] theorem raiseOn_scrub : (s.raiseOn i n).scrub = s.scrub := by simp [State.raiseOn]

@[simp] theorem raiseOn_freeIndex : (s.raiseOn i n).freeIndex = s.freeIndex := by simp [State.raiseOn]

@[simp] theorem raiseOn_pending : (s.raiseOn i n).pending = s.pending := by simp [State.raiseOn]

@[simp] theorem raiseBoth_resetLow : (s.raiseBoth n).resetLow = s.resetLow := by simp [State.raiseBoth]

@[simp] theorem raiseBoth_memory : (s.raiseBoth n).memory = s.memory := by simp [State.raiseBoth]

@[simp] theorem raiseBoth_arbiter : (s.raiseBoth n).arbiter = s.arbiter := by simp [State.raiseBoth]

@[simp] theorem raiseBoth_frames : (s.raiseBoth n).frames = s.frames := by simp [State.raiseBoth]

@[simp] theorem raiseBoth_clearQueue : (s.raiseBoth n).clearQueue = s.clearQueue := by simp [State.raiseBoth]

@[simp] theorem raiseBoth_freeQueue : (s.raiseBoth n).freeQueue = s.freeQueue := by simp [State.raiseBoth]

@[simp] theorem raiseBoth_supply : (s.raiseBoth n).supply = s.supply := by simp [State.raiseBoth]

@[simp] theorem raiseBoth_lowMark : (s.raiseBoth n).lowMark = s.lowMark := by simp [State.raiseBoth]

@[simp] theorem raiseBoth_waiters : (s.raiseBoth n).waiters = s.waiters := by simp [State.raiseBoth]

@[simp] theorem raiseBoth_spaces : (s.raiseBoth n).spaces = s.spaces := by simp [State.raiseBoth]

@[simp] theorem raiseBoth_jobs : (s.raiseBoth n).jobs = s.jobs := by simp [State.raiseBoth]

@[simp] theorem raiseBoth_scrub : (s.raiseBoth n).scrub = s.scrub := by simp [State.raiseBoth]

@[simp] theorem raiseBoth_freeIndex : (s.raiseBoth n).freeIndex = s.freeIndex := by simp [State.raiseBoth]

@[simp] theorem raiseBoth_pending : (s.raiseBoth n).pending = s.pending := by simp [State.raiseBoth]

@[simp] theorem enqueue_resetLow : (s.enqueue i o).resetLow = s.resetLow := by simp [State.enqueue]

@[simp] theorem enqueue_memory : (s.enqueue i o).memory = s.memory := by simp [State.enqueue]

@[simp] theorem enqueue_arbiter : (s.enqueue i o).arbiter = s.arbiter := by simp [State.enqueue]

@[simp] theorem enqueue_frames : (s.enqueue i o).frames = s.frames := by simp [State.enqueue]

@[simp] theorem enqueue_clearQueue : (s.enqueue i o).clearQueue = s.clearQueue := by simp [State.enqueue]

@[simp] theorem enqueue_freeQueue : (s.enqueue i o).freeQueue = s.freeQueue := by simp [State.enqueue]

@[simp] theorem enqueue_supply : (s.enqueue i o).supply = s.supply := by simp [State.enqueue]

@[simp] theorem enqueue_lowMark : (s.enqueue i o).lowMark = s.lowMark := by simp [State.enqueue]

@[simp] theorem enqueue_waiters : (s.enqueue i o).waiters = s.waiters := by simp [State.enqueue]

@[simp] theorem enqueue_spaces : (s.enqueue i o).spaces = s.spaces := by simp [State.enqueue]

@[simp] theorem enqueue_jobs : (s.enqueue i o).jobs = s.jobs := by simp [State.enqueue]

@[simp] theorem enqueue_scrub : (s.enqueue i o).scrub = s.scrub := by simp [State.enqueue]

@[simp] theorem enqueue_freeIndex : (s.enqueue i o).freeIndex = s.freeIndex := by simp [State.enqueue]

@[simp] theorem enqueue_pending : (s.enqueue i o).pending = s.pending := by simp [State.enqueue]

/-! ### The supply state and the arbiter -/

variable (st : SupplyState) (c : Client)

@[simp] theorem frame_setSupply : (s.setSupply st).frame f = s.frame f := by
  unfold State.setSupply; split <;> simp [State.frame]

@[simp] theorem space_setSupply : (s.setSupply st).space sp = s.space sp := by
  unfold State.setSupply; split <;> simp [State.space]

@[simp] theorem entry_setSupply : (s.setSupply st).entry p = s.entry p := by
  unfold State.entry; simp

@[simp] theorem setSupply_supply : (s.setSupply st).supply = st := by
  unfold State.setSupply; split <;> simp_all

@[simp] theorem setSupply_resetLow : (s.setSupply st).resetLow = s.resetLow := by unfold State.setSupply; split <;> simp

@[simp] theorem setSupply_memory : (s.setSupply st).memory = s.memory := by unfold State.setSupply; split <;> simp

@[simp] theorem setSupply_arbiter : (s.setSupply st).arbiter = s.arbiter := by unfold State.setSupply; split <;> simp

@[simp] theorem setSupply_frames : (s.setSupply st).frames = s.frames := by unfold State.setSupply; split <;> simp

@[simp] theorem setSupply_clearQueue : (s.setSupply st).clearQueue = s.clearQueue := by unfold State.setSupply; split <;> simp

@[simp] theorem setSupply_freeQueue : (s.setSupply st).freeQueue = s.freeQueue := by unfold State.setSupply; split <;> simp

@[simp] theorem setSupply_lowMark : (s.setSupply st).lowMark = s.lowMark := by unfold State.setSupply; split <;> simp

@[simp] theorem setSupply_waiters : (s.setSupply st).waiters = s.waiters := by unfold State.setSupply; split <;> simp

@[simp] theorem setSupply_spaces : (s.setSupply st).spaces = s.spaces := by unfold State.setSupply; split <;> simp

@[simp] theorem setSupply_jobs : (s.setSupply st).jobs = s.jobs := by unfold State.setSupply; split <;> simp

@[simp] theorem setSupply_scrub : (s.setSupply st).scrub = s.scrub := by unfold State.setSupply; split <;> simp

@[simp] theorem setSupply_freeIndex : (s.setSupply st).freeIndex = s.freeIndex := by unfold State.setSupply; split <;> simp

@[simp] theorem setSupply_pending : (s.setSupply st).pending = s.pending := by unfold State.setSupply; split <;> simp

@[simp] theorem frame_present : (s.present c).frame f = s.frame f := by unfold State.present; split <;> rfl

@[simp] theorem space_present : (s.present c).space sp = s.space sp := by unfold State.present; split <;> rfl

@[simp] theorem entry_present : (s.present c).entry p = s.entry p := by unfold State.present; split <;> rfl

@[simp] theorem link_present : (s.present c).link i = s.link i := by unfold State.present; split <;> cases i <;> rfl

@[simp] theorem present_current : (s.present c).arbiter.current = s.arbiter.current := by
  unfold State.present; split <;> rfl

@[simp] theorem mem_present_waiting (d : Client) :
    d ∈ (s.present c).arbiter.waiting ↔ d ∈ s.arbiter.waiting ∨ d = c := by
  unfold State.present; split
  · constructor
    · exact Or.inl
    · rintro (h | rfl) <;> assumption
  · simp

@[simp] theorem link_withdraw : (s.withdraw c).link i = s.link i := by cases i <;> rfl

@[simp] theorem frame_withdraw : (s.withdraw c).frame f = s.frame f := rfl

@[simp] theorem space_withdraw : (s.withdraw c).space sp = s.space sp := rfl

@[simp] theorem entry_withdraw : (s.withdraw c).entry p = s.entry p := rfl

@[simp] theorem present_resetLow : (s.present c).resetLow = s.resetLow := by unfold State.present; split <;> rfl

@[simp] theorem present_memory : (s.present c).memory = s.memory := by unfold State.present; split <;> rfl

@[simp] theorem present_frames : (s.present c).frames = s.frames := by unfold State.present; split <;> rfl

@[simp] theorem present_clearQueue : (s.present c).clearQueue = s.clearQueue := by unfold State.present; split <;> rfl

@[simp] theorem present_freeQueue : (s.present c).freeQueue = s.freeQueue := by unfold State.present; split <;> rfl

@[simp] theorem present_supply : (s.present c).supply = s.supply := by unfold State.present; split <;> rfl

@[simp] theorem present_lowMark : (s.present c).lowMark = s.lowMark := by unfold State.present; split <;> rfl

@[simp] theorem present_waiters : (s.present c).waiters = s.waiters := by unfold State.present; split <;> rfl

@[simp] theorem present_spaces : (s.present c).spaces = s.spaces := by unfold State.present; split <;> rfl

@[simp] theorem present_jobs : (s.present c).jobs = s.jobs := by unfold State.present; split <;> rfl

@[simp] theorem present_scrub : (s.present c).scrub = s.scrub := by unfold State.present; split <;> rfl

@[simp] theorem present_freeIndex : (s.present c).freeIndex = s.freeIndex := by unfold State.present; split <;> rfl

@[simp] theorem present_pending : (s.present c).pending = s.pending := by unfold State.present; split <;> rfl

@[simp] theorem withdraw_resetLow : (s.withdraw c).resetLow = s.resetLow := rfl

@[simp] theorem withdraw_memory : (s.withdraw c).memory = s.memory := rfl

@[simp] theorem withdraw_frames : (s.withdraw c).frames = s.frames := rfl

@[simp] theorem withdraw_clearQueue : (s.withdraw c).clearQueue = s.clearQueue := rfl

@[simp] theorem withdraw_freeQueue : (s.withdraw c).freeQueue = s.freeQueue := rfl

@[simp] theorem withdraw_supply : (s.withdraw c).supply = s.supply := rfl

@[simp] theorem withdraw_lowMark : (s.withdraw c).lowMark = s.lowMark := rfl

@[simp] theorem withdraw_waiters : (s.withdraw c).waiters = s.waiters := rfl

@[simp] theorem withdraw_spaces : (s.withdraw c).spaces = s.spaces := rfl

@[simp] theorem withdraw_jobs : (s.withdraw c).jobs = s.jobs := rfl

@[simp] theorem withdraw_scrub : (s.withdraw c).scrub = s.scrub := rfl

@[simp] theorem withdraw_freeIndex : (s.withdraw c).freeIndex = s.freeIndex := rfl

@[simp] theorem withdraw_pending : (s.withdraw c).pending = s.pending := rfl

/-! ### Slots -/

@[simp] theorem inData_idle (last : Option LastOutcome) : (Slot.idle last).inData = false := rfl

theorem inData_active (t : Transfer) : (Slot.active t).inData = true ↔ t.phase = .data := by simp [Slot.inData]

variable (k : SlotRef) (cause : HaltCause)

/-- A SEG's reply changes its link alone. -/
theorem segReply_frame (tag : Byte) (status : Status) (data : List Byte) :
    ∃ l, s.segReply k tag status data = s.setLink k.1 l := by
  obtain ⟨i, k⟩ := k
  unfold State.segReply
  split
  · exact ⟨s.link i, by cases i <;> rfl⟩
  · cases i <;> exact ⟨_, rfl⟩

/-- An access withdrawn with its SEG changes its link and who waits for the store. -/
theorem withdrawSegment_frame :
    ∃ l waiting, s.withdrawSegment k cause =
      State.setLink { s with arbiter := { s.arbiter with waiting := waiting } } k.1 l := by
  unfold State.withdrawSegment
  have same : s = State.setLink { s with arbiter := { s.arbiter with waiting := s.arbiter.waiting } } k.1 (s.link k.1) := by
    obtain ⟨i, k⟩ := k; cases i <;> rfl
  split
  · exact ⟨_, _, same⟩
  · split
    · obtain ⟨l, h⟩ := segReply_frame ((s.withdraw (.dataPath k.1)).onLink k.1 fun l => { l with segment := none }) k
        _ (.halted cause) []
      refine ⟨l, s.arbiter.waiting.filter fun d => d ≠ .dataPath k.1, h.trans ?_⟩
      obtain ⟨i, k⟩ := k; cases i <;> rfl
    · exact ⟨_, _, same⟩

/-- An IDLE slot does not halt. -/
theorem haltSlot_idle (last : Option LastOutcome) (h : s.slot k = .idle last) : s.haltSlot k cause = s := by
  unfold State.haltSlot; rw [h]

/-- A slot halted by another block's event changes its link and who waits for the store. -/
theorem haltSlot_frame :
    ∃ l waiting, s.haltSlot k cause =
      State.setLink { s with arbiter := { s.arbiter with waiting := waiting } } k.1 l := by
  unfold State.haltSlot
  split
  · exact ⟨s.link k.1, s.arbiter.waiting, by obtain ⟨i, k⟩ := k; cases i <;> rfl⟩
  · rename_i t _
    obtain ⟨l, w, h⟩ := withdrawSegment_frame (s.setSlot k (.active (t.halt cause))) k cause
    refine ⟨l, w, h.trans ?_⟩
    obtain ⟨i, k⟩ := k; cases i <;> rfl

end Sys2Proof.Machine
end

