-- ==== Sys2Proof/Laws/Intake.lean ====
section
/-! SUPPORT. How an event ends, and how a message reaches its request: the arbiter with nothing to grant, the
transmitter, hand-over and intake, each said once. -/

namespace Sys2Proof.Machine

/-! ### The transmitter and the end of a link's event -/

section Link

variable (l : Link)

/-- Everything the transmitter can do (R125, R184). -/
theorem transmit_cases :
    (l.transmit = l ∧ ((l.sending ≠ none ∨ l.state = .dormant) ∨
      (l.queue = [] ∧ (l.state ≠ .up ∨ l.nextNotice = none)))) ∨
    (l.sending = none ∧ l.state ≠ .dormant ∧ ∃ m rest, l.queue = m :: rest ∧
      l.transmit = { l with queue := rest, sending := some m }) ∨
    (l.sending = none ∧ l.state = .up ∧ l.queue = [] ∧ ∃ n, l.nextNotice = some n ∧
      l.transmit = { l with notices := l.notices.erase n, sending := some n.message }) := by
  unfold Link.transmit
  by_cases h : l.sending.isSome ∨ l.state = .dormant
  · rw [if_pos h]
    refine Or.inl ⟨rfl, Or.inl ?_⟩
    rcases h with h | h
    · left; intro e; simp [e] at h
    · exact Or.inr h
  · rw [if_neg h]
    push Not at h
    have hs : l.sending = none := by
      cases e : l.sending with
      | none => rfl
      | some m => simp [e] at h
    cases hq : l.queue with
    | cons m rest => exact Or.inr (Or.inl ⟨hs, h.2, m, rest, rfl, rfl⟩)
    | nil =>
      dsimp only
      by_cases hu : l.state = .up
      · rw [if_pos hu]
        cases hn : l.nextNotice with
        | none => exact Or.inl ⟨rfl, Or.inr ⟨rfl, Or.inr rfl⟩⟩
        | some n => exact Or.inr (Or.inr ⟨hs, hu, rfl, n, rfl, rfl⟩)
      · rw [if_neg hu]
        exact Or.inl ⟨rfl, Or.inr ⟨rfl, Or.inl hu⟩⟩

@[simp] theorem transmit_rate : l.transmit.rate = l.rate := by
  rcases transmit_cases l with ⟨h, _⟩ | ⟨_, _, _, _, _, h⟩ | ⟨_, _, _, _, _, h⟩ <;> rw [h]

@[simp] theorem transmit_rx : l.transmit.rx = l.rx := by
  rcases transmit_cases l with ⟨h, _⟩ | ⟨_, _, _, _, _, h⟩ | ⟨_, _, _, _, _, h⟩ <;> rw [h]

@[simp] theorem transmit_discarded : l.transmit.discarded = l.discarded := by
  rcases transmit_cases l with ⟨h, _⟩ | ⟨_, _, _, _, _, h⟩ | ⟨_, _, _, _, _, h⟩ <;> rw [h]

@[simp] theorem transmit_state : l.transmit.state = l.state := by
  rcases transmit_cases l with ⟨h, _⟩ | ⟨_, _, _, _, _, h⟩ | ⟨_, _, _, _, _, h⟩ <;> rw [h]

@[simp] theorem transmit_noticeMask : l.transmit.noticeMask = l.noticeMask := by
  rcases transmit_cases l with ⟨h, _⟩ | ⟨_, _, _, _, _, h⟩ | ⟨_, _, _, _, _, h⟩ <;> rw [h]

@[simp] theorem transmit_dormancyInterval : l.transmit.dormancyInterval = l.dormancyInterval := by
  rcases transmit_cases l with ⟨h, _⟩ | ⟨_, _, _, _, _, h⟩ | ⟨_, _, _, _, _, h⟩ <;> rw [h]

@[simp] theorem transmit_slotTimeout : l.transmit.slotTimeout = l.slotTimeout := by
  rcases transmit_cases l with ⟨h, _⟩ | ⟨_, _, _, _, _, h⟩ | ⟨_, _, _, _, _, h⟩ <;> rw [h]

@[simp] theorem transmit_dormancyTimer : l.transmit.dormancyTimer = l.dormancyTimer := by
  rcases transmit_cases l with ⟨h, _⟩ | ⟨_, _, _, _, _, h⟩ | ⟨_, _, _, _, _, h⟩ <;> rw [h]

@[simp] theorem transmit_deferred : l.transmit.deferred = l.deferred := by
  rcases transmit_cases l with ⟨h, _⟩ | ⟨_, _, _, _, _, h⟩ | ⟨_, _, _, _, _, h⟩ <;> rw [h]

@[simp] theorem transmit_awaiting : l.transmit.awaiting = l.awaiting := by
  rcases transmit_cases l with ⟨h, _⟩ | ⟨_, _, _, _, _, h⟩ | ⟨_, _, _, _, _, h⟩ <;> rw [h]

@[simp] theorem transmit_segment : l.transmit.segment = l.segment := by
  rcases transmit_cases l with ⟨h, _⟩ | ⟨_, _, _, _, _, h⟩ | ⟨_, _, _, _, _, h⟩ <;> rw [h]

@[simp] theorem transmit_slots : l.transmit.slots = l.slots := by
  rcases transmit_cases l with ⟨h, _⟩ | ⟨_, _, _, _, _, h⟩ | ⟨_, _, _, _, _, h⟩ <;> rw [h]

@[simp] theorem transmit_attn : l.transmit.attn = l.attn := by
  rcases transmit_cases l with ⟨h, _⟩ | ⟨_, _, _, _, _, h⟩ | ⟨_, _, _, _, _, h⟩ <;> rw [h]

@[simp] theorem settle_rate : l.settle.rate = l.rate := by simp [Link.settle]
@[simp] theorem settle_rx : l.settle.rx = l.rx := by simp [Link.settle]
@[simp] theorem settle_discarded : l.settle.discarded = l.discarded := by simp [Link.settle]
@[simp] theorem settle_state : l.settle.state = l.state := by simp [Link.settle]
@[simp] theorem settle_noticeMask : l.settle.noticeMask = l.noticeMask := by simp [Link.settle]
@[simp] theorem settle_dormancyInterval : l.settle.dormancyInterval = l.dormancyInterval := by simp [Link.settle]
@[simp] theorem settle_slotTimeout : l.settle.slotTimeout = l.slotTimeout := by simp [Link.settle]
@[simp] theorem settle_deferred : l.settle.deferred = l.deferred := by simp [Link.settle]
@[simp] theorem settle_awaiting : l.settle.awaiting = l.awaiting := by simp [Link.settle]
@[simp] theorem settle_segment : l.settle.segment = l.segment := by simp [Link.settle]
@[simp] theorem settle_slots : l.settle.slots = l.slots := by simp [Link.settle]

@[simp] theorem settle_canTake : l.settle.canTake = l.canTake := by simp [Link.canTake]

/-- The transmitter that has acted has nothing more to do. -/
theorem transmit_transmit : l.transmit.transmit = l.transmit := by
  rcases transmit_cases l with ⟨h, _⟩ | ⟨_, _, m, rest, _, h⟩ | ⟨_, _, _, n, _, h⟩
  · rw [h, h]
  · rw [h]; simp [Link.transmit]
  · rw [h]; simp [Link.transmit]

/-- The transmitter reads neither the dormancy timer nor ATTN. -/
theorem transmit_lines (d : Timer) (a : Bool) :
    { l with dormancyTimer := d, attn := a }.transmit = { l.transmit with dormancyTimer := d, attn := a } := by
  obtain ⟨rate, rx, discarded, sending, queue, state, mask, interval, timeout, dt, deferred, awaiting, segment, slots,
    notices, attn⟩ := l
  have hn : ∀ q : Bool, Link.nextNotice ⟨rate, rx, discarded, sending, queue, state, mask, interval, timeout,
      d, deferred, awaiting, segment, slots, notices, a⟩ = Link.nextNotice ⟨rate, rx, discarded, sending, queue, state,
      mask, interval, timeout, dt, deferred, awaiting, segment, slots, notices, attn⟩ := fun _ => rfl
  unfold Link.transmit
  dsimp only
  rw [hn true]
  by_cases h : sending.isSome = true ∨ state = .dormant
  · simp only [if_pos h]
  · simp only [if_neg h]
    cases queue with
    | cons m rest => rfl
    | nil =>
      by_cases hu : state = .up
      · simp only [if_pos hu]
        split <;> rfl
      · simp only [if_neg hu]

/-- A link whose event has ended is as its rules leave it. -/
theorem settle_settle : l.settle.settle = l.settle := by
  have ht : l.settle.transmit = l.settle := by
    unfold Link.settle
    rw [transmit_lines, transmit_transmit]
  have hd : l.settle.dormancyCondition = l.settle.dormancyTimer := rfl
  have ha : l.settle.attention = l.settle.attn := rfl
  calc l.settle.settle
      = { l.settle.transmit with
          dormancyTimer := l.settle.transmit.dormancyCondition, attn := l.settle.transmit.attention } := rfl
    _ = { l.settle with dormancyTimer := l.settle.dormancyCondition, attn := l.settle.attention } := by rw [ht]
    _ = l.settle := by rw [hd, ha]

/-- A settled link that is UP with an idle transmitter has nothing to send (R125). -/
theorem queue_nil_of_settled (h : l.settle = l) (hs : l.sending = none) (hd : l.state ≠ .dormant) : l.queue = [] := by
  rcases transmit_cases l with ⟨_, h' | ⟨h', _⟩⟩ | ⟨_, _, m, rest, _, ht⟩ | ⟨_, _, _, n, _, ht⟩
  · rcases h' with h' | h'
    · exact absurd hs h'
    · exact absurd h' hd
  · exact h'
  · exfalso
    have : l.settle.sending = some m := by simp [Link.settle, ht]
    rw [h, hs] at this; cases this
  · exfalso
    have : l.settle.sending = some n.message := by simp [Link.settle, ht]
    rw [h, hs] at this; cases this

end Link

/-! ### Both links, and the store -/

section Event

variable (s : State) (i j : LinkId)

@[simp] theorem link_settle : s.settle.link i = (s.link i).settle := by cases i <;> rfl
@[simp] theorem settle_arbiter : s.settle.arbiter = s.arbiter := rfl
@[simp] theorem settle_memory : s.settle.memory = s.memory := rfl
@[simp] theorem settle_frames : s.settle.frames = s.frames := rfl
@[simp] theorem settle_clearQueue : s.settle.clearQueue = s.clearQueue := rfl
@[simp] theorem settle_freeQueue : s.settle.freeQueue = s.freeQueue := rfl
@[simp] theorem settle_supply : s.settle.supply = s.supply := rfl
@[simp] theorem settle_lowMark : s.settle.lowMark = s.lowMark := rfl
@[simp] theorem settle_waiters : s.settle.waiters = s.waiters := rfl
@[simp] theorem settle_spaces : s.settle.spaces = s.spaces := rfl
@[simp] theorem settle_jobs : s.settle.jobs = s.jobs := rfl
@[simp] theorem settle_scrub : s.settle.scrub = s.scrub := rfl
@[simp] theorem settle_resetLow : s.settle.resetLow = s.resetLow := rfl
@[simp] theorem settle_freeIndex : s.settle.freeIndex = s.freeIndex := rfl
@[simp] theorem settle_pending : s.settle.pending = s.pending := rfl
@[simp] theorem frame_settle (f : FrameId) : s.settle.frame f = s.frame f := rfl
@[simp] theorem space_settle (sp : SpaceId) : s.settle.space sp = s.space sp := rfl
@[simp] theorem entry_settle (p : BackRef) : s.settle.entry p = s.entry p := rfl

theorem State.settle_idem : s.settle.settle = s.settle := by
  unfold State.settle
  simp only [settle_settle]

/-- The arbiter grants nothing while the store is busy. -/
theorem arbitrate_busy (fuel : Nat) (h : s.arbiter.current.isSome = true) : s.arbitrate fuel = s := by
  cases fuel with
  | zero => rfl
  | succ n => simp [State.arbitrate, h]

/-- The arbiter grants nothing when no access waits. -/
theorem arbitrate_none (fuel : Nat) (h : s.arbiter.waiting = []) : s.arbitrate fuel = s := by
  cases fuel with
  | zero => rfl
  | succ n =>
    have hn : s.arbiter.next = none := by simp [Arbiter.next, h]
    unfold State.arbitrate
    split
    · rfl
    · rw [hn]

/-- The arbiter has nothing to do in a state where the store is busy or no access waits. -/
theorem endEvent_of_store (h : s.arbiter.current.isSome = true ∨ s.arbiter.waiting = []) : s.endEvent = s.settle := by
  unfold State.endEvent
  rcases h with h | h
  · rw [arbitrate_busy _ _ h]
  · rw [arbitrate_none _ _ h]

theorem nextLink_none (h : ∀ i, (s.link i).canTake = false) : s.nextLink = none := by
  have h0 : s.link0.canTake = false := h .link0
  have h1 : s.link1.canTake = false := h .link1
  unfold State.nextLink
  rw [h0, h1]

/-- No message is taken from those that await while each link with one has a SEG in processing. -/
theorem drain_none (fuel : Nat) (h : ∀ i, (s.link i).canTake = false) : s.drain fuel = s := by
  cases fuel with
  | zero => rfl
  | succ n => simp [State.drain, nextLink_none s h]

/-- The end of a step after whose event no link can take a message. -/
theorem finish_of_taken (h : ∀ i, (s.endEvent.link i).canTake = false) : s.finish = s.endEvent := by
  unfold State.finish; exact drain_none _ _ h

/-- The end of a step whose event leaves the arbiter and intake nothing to do: the transmitters act. -/
theorem finish_eq_settle (hs : s.arbiter.current.isSome = true ∨ s.arbiter.waiting = [])
    (ht : ∀ i, (s.link i).canTake = false) : s.finish = s.settle := by
  rw [finish_of_taken _ (by intro i; rw [endEvent_of_store s hs, link_settle, settle_canTake]; exact ht i),
    endEvent_of_store s hs]

end Event

/-! ### Hand-over (R118, R124, R132, R136) -/

section HandOver

variable (s : State) (i j : LinkId) (m : Message)

theorem heard_eq : s.heard i = s.onLink i fun l => { l with rx := Receiver.hunting } := rfl

@[simp] theorem link_heard_same : (s.heard i).link i = { s.link i with rx := Receiver.hunting } := by simp [heard_eq]

@[simp] theorem link_heard_other (h : j ≠ i) : (s.heard i).link j = s.link j := by simp [heard_eq, h]

@[simp] theorem heard_arbiter : (s.heard i).arbiter = s.arbiter := by simp [heard_eq]
@[simp] theorem heard_memory : (s.heard i).memory = s.memory := by simp [heard_eq]
@[simp] theorem heard_frames : (s.heard i).frames = s.frames := by simp [heard_eq]
@[simp] theorem heard_clearQueue : (s.heard i).clearQueue = s.clearQueue := by simp [heard_eq]
@[simp] theorem heard_freeQueue : (s.heard i).freeQueue = s.freeQueue := by simp [heard_eq]
@[simp] theorem heard_supply : (s.heard i).supply = s.supply := by simp [heard_eq]
@[simp] theorem heard_lowMark : (s.heard i).lowMark = s.lowMark := by simp [heard_eq]
@[simp] theorem heard_waiters : (s.heard i).waiters = s.waiters := by simp [heard_eq]
@[simp] theorem heard_spaces : (s.heard i).spaces = s.spaces := by simp [heard_eq]
@[simp] theorem heard_jobs : (s.heard i).jobs = s.jobs := by simp [heard_eq]
@[simp] theorem heard_scrub : (s.heard i).scrub = s.scrub := by simp [heard_eq]
@[simp] theorem heard_resetLow : (s.heard i).resetLow = s.resetLow := by simp [heard_eq]
@[simp] theorem heard_freeIndex : (s.heard i).freeIndex = s.freeIndex := by simp [heard_eq]
@[simp] theorem heard_pending : (s.heard i).pending = s.pending := by simp [heard_eq]
@[simp] theorem frame_heard (f : FrameId) : (s.heard i).frame f = s.frame f := by simp [heard_eq]
@[simp] theorem space_heard (sp : SpaceId) : (s.heard i).space sp = s.space sp := by simp [heard_eq]
@[simp] theorem entry_heard (p : BackRef) : (s.heard i).entry p = s.entry p := by simp [heard_eq]

@[simp] theorem slot_heard (k : SlotRef) : (s.heard i).slot k = s.slot k := by
  unfold State.slot
  by_cases h : k.1 = i
  · subst h; simp
  · simp [h]

theorem generalOccupied_rx (l : Link) (rx : Receiver) : { l with rx := rx }.generalOccupied = l.generalOccupied := rfl

theorem wakeLink_of_not_dormant (h : (s.link i).state ≠ .dormant) : s.wakeLink i = s := by simp [State.wakeLink, h]

/-- A sound message on a link with a free place and no SEG in processing is taken at once. -/
theorem handOver_take (hp : (s.link i).generalOccupied < 8) (hseg : (s.link i).segment = none)
    (haw : (s.link i).awaiting = []) :
    s.handOver i m = (((s.heard i).wakeLink i).take i m false).finish := by
  unfold State.handOver
  have h1 : ((s.heard i).link i).generalOccupied = (s.link i).generalOccupied := by
    rw [link_heard_same]; exact generalOccupied_rx _ _
  have hw : ∀ t : State, ((t.wakeLink i).link i).segment = (t.link i).segment ∧
      ((t.wakeLink i).link i).awaiting = (t.link i).awaiting := by
    intro t; unfold State.wakeLink; split
    · simp
    · exact ⟨rfl, rfl⟩
  have h2 := (hw (s.heard i)).1
  have h3 := (hw (s.heard i)).2
  rw [link_heard_same] at h2 h3
  dsimp only at h2 h3
  rw [hseg] at h2; rw [haw] at h3
  change (if 8 ≤ ((s.heard i).link i).generalOccupied then _ else _) = _
  rw [if_neg (by rw [h1]; omega)]
  change (if (((s.heard i).wakeLink i).link i).segment.isSome ∨ (((s.heard i).wakeLink i).link i).awaiting ≠ [] then _
    else _) = _
  rw [if_neg (by rw [h2, h3]; simp)]
  rfl

end HandOver

/-! ### Intake (R137) -/

/-- Each KIND code and the kind it names. -/
theorem requestKind_code (k : RequestKind) : requestKind? k.code = some k := by cases k <;> decide

/-- The lengths of Table 10-1 are those the intake check compares. -/
theorem requestLengths_find (k : RequestKind) : ∃ a b, requestLengths.find? (fun row => row.1 = k.code) = some (k.code, a, b) ∧
    ∀ n, k.lengthOk n = true ↔ ¬(n < a ∨ b < n) := by
  cases k <;> refine ⟨_, _, rfl, ?_⟩ <;> intro n <;> simp [RequestKind.lengthOk] <;> omega

theorem requestKind_none (b : Byte) : requestKind? b = none ↔ requestLengths.find? (fun row => row.1 = b) = none := by
  revert b; decide

/-- A KIND byte that names a kind is that kind's code. -/
theorem requestKind_some (b : Byte) (k : RequestKind) (h : requestKind? b = some k) : k.code = b := by
  unfold requestKind? at h
  have := List.find?_some h
  simpa using this

/-- Intake's refusals are those of Table 7-5, in its order. -/
theorem intake_refusal (l : Link) (m : Message) :
    (match l.intake m with
      | .error st => some st.code
      | .ok _ => none) = refusalCode? l m := by
  unfold Link.intake refusalCode?
  cases hk : requestKind? m.kind with
  | none => rw [(requestKind_none m.kind).1 hk]; rfl
  | some k =>
    have hc := requestKind_some m.kind k hk
    obtain ⟨a, b, hf, hl⟩ := requestLengths_find k
    rw [← hc, hf]
    dsimp only
    by_cases h1 : k.lengthOk m.payload.length = true
    · rw [if_neg ((hl _).1 h1)]
      simp only [h1, Bool.not_true, Bool.false_eq_true, if_false]
      by_cases h2 : m.tag = 0
      · simp [h2, Status.code]
      · simp only [h2, if_false]
        have h3 : (l.deferred.any fun e => decide (e.tag = m.tag)) = true ↔ m.tag ∈ l.deferred.map DeferredEntry.tag := by
          simp [List.any_eq_true]
        by_cases h4 : m.tag ∈ l.deferred.map DeferredEntry.tag
        · rw [if_pos (h3.2 h4), if_pos h4]; rfl
        · rw [if_neg (fun x => h4 (h3.1 x)), if_neg h4]
          have h5 : (l.state = .down ∧ k ≠ .hello) ↔ (l.state = .down ∧ k.code ≠ 0x01) := by
            cases k <;> simp [RequestKind.code]
          by_cases h6 : l.state = .down ∧ k.code ≠ 0x01
          · rw [if_pos (h5.2 h6), if_pos h6]; rfl
          · rw [if_neg (fun x => h6 (h5.1 x)), if_neg h6]
            have h7 : (k.deferred?.isSome = true ∧ 4 ≤ l.deferred.length) ↔
                ((k.code = 0x31 ∨ k.code = 0x32 ∨ k.code = 0x33) ∧ 4 ≤ l.deferred.length) := by
              cases k <;> simp [RequestKind.code, RequestKind.deferred?]
            by_cases h8 : (k.code = 0x31 ∨ k.code = 0x32 ∨ k.code = 0x33) ∧ 4 ≤ l.deferred.length
            · rw [if_pos (h7.2 h8), if_pos h8]; rfl
            · rw [if_neg (fun x => h8 (h7.1 x)), if_neg h8]
    · have h9 : m.payload.length < a ∨ b < m.payload.length := by by_contra hx; exact h1 ((hl _).2 hx)
      simp only [Bool.not_eq_true] at h1
      simp only [h1, Bool.not_false, if_true, h9]; rfl

/-- A request accepted at intake is served. -/
theorem take_ok (s : State) (i : LinkId) (k : RequestKind) (tag : Byte) (p : List Byte) (rxdLow : Bool)
    (hl : k.lengthOk p.length = true) (ht : tag ≠ 0) (hf : ∀ e ∈ (s.link i).deferred, e.tag ≠ tag)
    (hu : (s.link i).state ≠ .down ∨ k = .hello) (hb : k.deferred? = none ∨ (s.link i).deferred.length < 4) :
    s.take i ⟨k.code, tag, p⟩ rxdLow = serve i k ⟨k.code, tag, p⟩ rxdLow (s.acceptDeferred i k tag) := by
  have : (s.link i).intake ⟨k.code, tag, p⟩ = .ok k := by
    unfold Link.intake
    simp only [requestKind_code, hl, Bool.not_true, Bool.false_eq_true, if_false, ht]
    have h1 : ¬((s.link i).deferred.any fun e => decide (e.tag = tag)) = true := by
      simpa [List.any_eq_true] using hf
    rw [if_neg h1, if_neg (by rintro ⟨a, b⟩; rcases hu with h | h <;> contradiction),
      if_neg (by rintro ⟨a, b⟩; rcases hb with h | h; · simp [h] at a
                 · omega)]
  unfold State.take
  rw [this]

theorem acceptDeferred_none (s : State) (i : LinkId) (k : RequestKind) (tag : Byte) (h : k.deferred? = none) :
    s.acceptDeferred i k tag = s := by simp [State.acceptDeferred, h]

end Sys2Proof.Machine
end

