-- ==== Sys2Proof/WellFormed.lean ====
section
/-! DEFINITION. The commands whose operands a link frame can carry: a payload is 0–72 bytes (R116), and a row that names
a condition of a byte carries such a byte. -/

namespace Sys2Proof

/-- The longest payload (R116). -/
def maxPayload : Nat := 72

/-- The KIND codes of the requests (Table 10-1). -/
def requestCodes : List Byte :=
  [0x01, 0x02, 0x03, 0x04, 0x05, 0x06, 0x10, 0x11, 0x12, 0x13, 0x14, 0x15, 0x16, 0x17, 0x18, 0x20, 0x21, 0x22, 0x23,
   0x30, 0x31, 0x32, 0x33]

/-- Whether a command is well formed. -/
def Instr.wellFormed : Instr → Bool
  | .powerOn _ _ => true
  | .resetN => true
  | .resetNRelease _ _ => true
  | .rxdReturnsHigh _ => true
  | .lineBreak _ => true
  | .interByteGapExpiry _ => true
  | .linkFrameLenDiscard _ len => 72 < len.toNat
  | .linkFrameCheckDiscard _ _ => true
  | .generalPlacesFullDiscard _ => true
  | .badKindMessage _ kind _ p => p.length ≤ maxPayload && !requestCodes.contains kind
  | .hello _ _ p => p.length ≤ maxPayload
  | .goodbye _ _ p => p.length ≤ maxPayload
  | .wake _ _ p => p.length ≤ maxPayload
  | .configNoticeMask _ _ v => v.length + 1 ≤ maxPayload
  | .configDormancyInterval _ _ v => v.length + 1 ≤ maxPayload
  | .configSlotTimeout _ _ v => v.length + 1 ≤ maxPayload
  | .configScrubInterval _ _ v => v.length + 1 ≤ maxPayload
  | .configRetireThreshold _ _ v => v.length + 1 ≤ maxPayload
  | .configLowMark _ _ v => v.length + 1 ≤ maxPayload
  | .configQuery _ _ _ v => v.length + 1 ≤ maxPayload
  | .linkStatus _ _ p => p.length ≤ maxPayload
  | .partStatus _ _ p => p.length ≤ maxPayload
  | .spaceCreate _ _ p => p.length ≤ maxPayload
  | .spaceDestroy _ _ p => p.length ≤ maxPayload
  | .spaceGrant _ _ p => p.length ≤ maxPayload
  | .spaceInfo _ _ p => p.length ≤ maxPayload
  | .map _ _ p => p.length ≤ maxPayload
  | .unmap _ _ p => p.length ≤ maxPayload
  | .protect _ _ p => p.length ≤ maxPayload
  | .clone _ _ p => p.length ≤ maxPayload
  | .usage _ _ p => p.length ≤ maxPayload
  | .openSlot _ _ p => p.length ≤ maxPayload
  | .seg _ _ p => p.length ≤ maxPayload
  | .closeSlot _ _ p => p.length ≤ maxPayload
  | .slotInfo _ _ p => p.length ≤ maxPayload
  | .frameInfo _ _ p => p.length ≤ maxPayload
  | .retire _ _ p => p.length ≤ maxPayload
  | .check _ _ p => p.length ≤ maxPayload
  | .waitFree _ _ p => p.length ≤ maxPayload
  | .messageSent _ _ => true
  | .dormancyTimerExpiry _ => true
  | .slotIdleTimerExpiry _ _ => true
  | .waitFreeTimerExpiry _ tag => tag != 0
  | .walkTimerExpiry => true
  | .clearCompletion => true
  | .copyCompletion => true
  | .checkCompletion => true
  | .storageFault _ _ _ => true
  | .byteReceived _ _ => true
  | .stopBitLow _ => true

end Sys2Proof
end

