-- ==== Sys2Proof/Laws/PerInstr.lean ====
section
/-! SUPPORT. One lemma for each command: a well-formed command that arrives in a link frame fits one (R116). -/

namespace Sys2Proof.Laws.PayloadFits

open Sys2Proof.Machine

/-- The link frame of a well-formed command carries at most 72 payload bytes. -/
def Statement (c : Instr) : Prop :=
  c.wellFormed = true → ∀ i m, messageOf c = some (i, m) → m.payload.length ≤ 72

/-- A command of one message fits if that message's payload does. -/
theorem of_message {c : Instr} {j : LinkId} {n : Message} (h : messageOf c = some (j, n))
    (fits : c.wellFormed = true → n.payload.length ≤ 72) : Statement c :=
  fun w _ _ e => (Prod.mk.inj (Option.some.inj (h.symm.trans e))).2 ▸ fits w

/-- A command that no link frame carries. -/
theorem of_none {c : Instr} (h : messageOf c = none) : Statement c :=
  fun _ _ _ e => nomatch h.symm.trans e

theorem powerOn (pins0 pins1 : LinkPins) : Statement (.powerOn pins0 pins1) := of_none rfl

theorem resetN : Statement (.resetN) := of_none rfl

theorem resetNRelease (pins0 pins1 : LinkPins) : Statement (.resetNRelease pins0 pins1) := of_none rfl

theorem rxdReturnsHigh (link : LinkId) : Statement (.rxdReturnsHigh link) := of_none rfl

theorem lineBreak (link : LinkId) : Statement (.lineBreak link) := of_none rfl

theorem interByteGapExpiry (link : LinkId) : Statement (.interByteGapExpiry link) := of_none rfl

theorem linkFrameLenDiscard (link : LinkId) (len : Byte) : Statement (.linkFrameLenDiscard link len) := of_none rfl

theorem linkFrameCheckDiscard (link : LinkId) (lastByte : Byte) : Statement (.linkFrameCheckDiscard link lastByte) :=
  of_none rfl

theorem generalPlacesFullDiscard (link : LinkId) : Statement (.generalPlacesFullDiscard link) := of_none rfl

theorem badKindMessage (link : LinkId) (kind tag : Byte) (payload : List Byte) : Statement (.badKindMessage link kind tag payload) :=
  of_message rfl fun w => of_decide_eq_true (Bool.and_eq_true _ _ ▸ w).1

theorem hello (link : LinkId) (tag : Byte) (payload : List Byte) : Statement (.hello link tag payload) :=
  of_message rfl of_decide_eq_true

theorem goodbye (link : LinkId) (tag : Byte) (payload : List Byte) : Statement (.goodbye link tag payload) :=
  of_message rfl of_decide_eq_true

theorem wake (link : LinkId) (tag : Byte) (payload : List Byte) : Statement (.wake link tag payload) :=
  of_message rfl of_decide_eq_true

theorem configNoticeMask (link : LinkId) (tag : Byte) (value : List Byte) : Statement (.configNoticeMask link tag value) :=
  of_message rfl of_decide_eq_true

theorem configDormancyInterval (link : LinkId) (tag : Byte) (value : List Byte) : Statement (.configDormancyInterval link tag value) :=
  of_message rfl of_decide_eq_true

theorem configSlotTimeout (link : LinkId) (tag : Byte) (value : List Byte) : Statement (.configSlotTimeout link tag value) :=
  of_message rfl of_decide_eq_true

theorem configScrubInterval (link : LinkId) (tag : Byte) (value : List Byte) : Statement (.configScrubInterval link tag value) :=
  of_message rfl of_decide_eq_true

theorem configRetireThreshold (link : LinkId) (tag : Byte) (value : List Byte) : Statement (.configRetireThreshold link tag value) :=
  of_message rfl of_decide_eq_true

theorem configLowMark (link : LinkId) (tag : Byte) (value : List Byte) : Statement (.configLowMark link tag value) :=
  of_message rfl of_decide_eq_true

theorem configQuery (link : LinkId) (tag : Byte) (item : BitVec 7) (value : List Byte) : Statement (.configQuery link tag item value) :=
  of_message rfl of_decide_eq_true

theorem linkStatus (link : LinkId) (tag : Byte) (payload : List Byte) : Statement (.linkStatus link tag payload) :=
  of_message rfl of_decide_eq_true

theorem partStatus (link : LinkId) (tag : Byte) (payload : List Byte) : Statement (.partStatus link tag payload) :=
  of_message rfl of_decide_eq_true

theorem spaceCreate (link : LinkId) (tag : Byte) (payload : List Byte) : Statement (.spaceCreate link tag payload) :=
  of_message rfl of_decide_eq_true

theorem spaceDestroy (link : LinkId) (tag : Byte) (payload : List Byte) : Statement (.spaceDestroy link tag payload) :=
  of_message rfl of_decide_eq_true

theorem spaceGrant (link : LinkId) (tag : Byte) (payload : List Byte) : Statement (.spaceGrant link tag payload) :=
  of_message rfl of_decide_eq_true

theorem spaceInfo (link : LinkId) (tag : Byte) (payload : List Byte) : Statement (.spaceInfo link tag payload) :=
  of_message rfl of_decide_eq_true

theorem map (link : LinkId) (tag : Byte) (payload : List Byte) : Statement (.map link tag payload) :=
  of_message rfl of_decide_eq_true

theorem unmap (link : LinkId) (tag : Byte) (payload : List Byte) : Statement (.unmap link tag payload) :=
  of_message rfl of_decide_eq_true

theorem protect (link : LinkId) (tag : Byte) (payload : List Byte) : Statement (.protect link tag payload) :=
  of_message rfl of_decide_eq_true

theorem clone (link : LinkId) (tag : Byte) (payload : List Byte) : Statement (.clone link tag payload) :=
  of_message rfl of_decide_eq_true

theorem usage (link : LinkId) (tag : Byte) (payload : List Byte) : Statement (.usage link tag payload) :=
  of_message rfl of_decide_eq_true

theorem openSlot (link : LinkId) (tag : Byte) (payload : List Byte) : Statement (.openSlot link tag payload) :=
  of_message rfl of_decide_eq_true

theorem seg (link : LinkId) (tag : Byte) (payload : List Byte) : Statement (.seg link tag payload) :=
  of_message rfl of_decide_eq_true

theorem closeSlot (link : LinkId) (tag : Byte) (payload : List Byte) : Statement (.closeSlot link tag payload) :=
  of_message rfl of_decide_eq_true

theorem slotInfo (link : LinkId) (tag : Byte) (payload : List Byte) : Statement (.slotInfo link tag payload) :=
  of_message rfl of_decide_eq_true

theorem frameInfo (link : LinkId) (tag : Byte) (payload : List Byte) : Statement (.frameInfo link tag payload) :=
  of_message rfl of_decide_eq_true

theorem retire (link : LinkId) (tag : Byte) (payload : List Byte) : Statement (.retire link tag payload) :=
  of_message rfl of_decide_eq_true

theorem check (link : LinkId) (tag : Byte) (payload : List Byte) : Statement (.check link tag payload) :=
  of_message rfl of_decide_eq_true

theorem waitFree (link : LinkId) (tag : Byte) (payload : List Byte) : Statement (.waitFree link tag payload) :=
  of_message rfl of_decide_eq_true

theorem messageSent (link : LinkId) (rxdLow : Bool) : Statement (.messageSent link rxdLow) := of_none rfl

theorem dormancyTimerExpiry (link : LinkId) : Statement (.dormancyTimerExpiry link) := of_none rfl

theorem slotIdleTimerExpiry (link : LinkId) (slot : SlotId) : Statement (.slotIdleTimerExpiry link slot) := of_none rfl

theorem waitFreeTimerExpiry (link : LinkId) (tag : Byte) : Statement (.waitFreeTimerExpiry link tag) := of_none rfl

theorem walkTimerExpiry : Statement (.walkTimerExpiry) := of_none rfl

theorem clearCompletion : Statement (.clearCompletion) := of_none rfl

theorem copyCompletion : Statement (.copyCompletion) := of_none rfl

theorem checkCompletion : Statement (.checkCompletion) := of_none rfl

theorem storageFault (frame : FrameId) (word : WordId) (bit : BitId) : Statement (.storageFault frame word bit) :=
  of_none rfl

theorem byteReceived (link : LinkId) (byte : Byte) : Statement (.byteReceived link byte) := of_none rfl

theorem stopBitLow (link : LinkId) : Statement (.stopBitLow link) := of_none rfl

end Sys2Proof.Laws.PayloadFits
end

