-- ==== Sys2Proof/Laws/Requests.lean ====
section
/-! SUPPORT. A request on a link that can answer it at once: the row of the request is its `serve…` definition, and an
event that presents no access ends with the transmitters. -/

namespace Sys2Proof.Machine

/-- The event of a part at rest that presents no access and leaves no message untaken ends with the transmitters. -/
theorem Stable_finish {s t : State} (h : s.Stable) (ha : t.arbiter = s.arbiter)
    (ht : ∀ i, (t.link i).canTake = (s.link i).canTake) : t.finish = t.settle := by
  apply finish_eq_settle
  · rw [ha]; exact h.store
  · intro i; rw [ht]; exact h.taken i

/-- A link that can answer at once has no message awaiting intake. -/
theorem Ready_awaiting {s : State} {i : LinkId} {tag : Byte} (h : s.Ready i tag) : (s.link i).awaiting = [] := by
  have := h.stable.taken i
  simpa [Link.canTake, h.free] using this

/-- A request on such a link is served in its own event. -/
theorem Ready_request {s : State} {i : LinkId} {tag : Byte} (h : s.Ready i tag) (k : RequestKind) (p : List Byte)
    (hl : k.lengthOk p.length = true) (hb : k.deferred? = none ∨ (s.link i).deferred.length < 4) :
    s.request i k tag p = (serve i k ⟨k.code, tag, p⟩ false ((s.heard i).acceptDeferred i k tag)).finish := by
  unfold State.request State.receive
  rw [if_pos h.receiving, handOver_take s i _ h.places h.free (Ready_awaiting h)]
  have hw : (s.heard i).wakeLink i = s.heard i := wakeLink_of_not_dormant _ _ (by simp [h.up])
  rw [hw, take_ok _ _ _ _ _ _ hl h.tagged (by simpa using h.fresh) (Or.inl (by simp [h.up])) (by simpa using hb)]

/-- An immediate request on such a link. -/
theorem Ready_immediate {s : State} {i : LinkId} {tag : Byte} (h : s.Ready i tag) (k : RequestKind) (p : List Byte)
    (hl : k.lengthOk p.length = true) (hb : k.deferred? = none) :
    s.request i k tag p = (serve i k ⟨k.code, tag, p⟩ false (s.heard i)).finish := by
  rw [Ready_request h k p hl (Or.inl hb), acceptDeferred_none _ _ _ _ hb]

/-- What the end of an event reads of a link to know whether a message can be taken. -/
theorem canTake_congr {a b : Link} (h1 : a.segment = b.segment) (h2 : a.awaiting = b.awaiting) :
    a.canTake = b.canTake := by simp [Link.canTake, h1, h2]

/-- A reply joins the queue and changes nothing else. -/
theorem link_reply (s : State) (i j : LinkId) (k : RequestKind) (tag : Byte) (p : List Byte) :
    (s.reply i k tag p).link j = if j = i then
      { s.link j with queue := (s.link j).queue ++ [{ kind := replyKind k.code, tag := tag, payload := p, place := .general }] }
    else s.link j := by
  unfold State.reply State.enqueue
  rw [link_onLink]

@[simp] theorem reply_arbiter (s : State) (i : LinkId) (k : RequestKind) (tag : Byte) (p : List Byte) :
    (s.reply i k tag p).arbiter = s.arbiter := by simp [State.reply]

@[simp] theorem canTake_reply (s : State) (i j : LinkId) (k : RequestKind) (tag : Byte) (p : List Byte) :
    ((s.reply i k tag p).link j).canTake = (s.link j).canTake := by
  rw [link_reply]; split <;> rfl

@[simp] theorem canTake_heard (s : State) (i j : LinkId) : ((s.heard i).link j).canTake = (s.link j).canTake := by
  by_cases h : j = i
  · subst h; simp [Link.canTake]
  · simp [h]

/-- A change of a link that touches neither the SEG in processing nor the messages awaiting intake. -/
theorem canTake_onLink (s : State) (i j : LinkId) (c : Link → Link) (h1 : (c (s.link i)).segment = (s.link i).segment)
    (h2 : (c (s.link i)).awaiting = (s.link i).awaiting) : ((s.onLink i c).link j).canTake = (s.link j).canTake := by
  by_cases h : j = i
  · subst h; rw [link_onLink_same]; exact canTake_congr h1 h2
  · rw [link_onLink_other _ _ _ _ h]

@[simp] theorem canTake_raiseOn (s : State) (i j : LinkId) (n : Notice) :
    ((s.raiseOn i n).link j).canTake = (s.link j).canTake := by
  unfold State.raiseOn
  apply canTake_onLink <;> (split <;> rfl)

@[simp] theorem canTake_raiseBoth (s : State) (j : LinkId) (n : Notice) :
    ((s.raiseBoth n).link j).canTake = (s.link j).canTake := by
  unfold State.raiseBoth; rw [canTake_raiseOn, canTake_raiseOn]

@[simp] theorem canTake_setSlot (s : State) (k : SlotRef) (slot : Slot) (j : LinkId) :
    ((s.setSlot k slot).link j).canTake = (s.link j).canTake := by
  unfold State.setSlot
  apply canTake_onLink <;> rfl

/-- The reply of a request row, by the KIND code. -/
theorem reply_answered (s : State) (i : LinkId) (k : RequestKind) (tag : Byte) (p : List Byte) :
    s.reply i k tag p = s.answered i k.code tag p := rfl

end Sys2Proof.Machine
end

