-- ==== Sys2Proof/Laws/Reset.lean ====
section
/-! SUPPORT. What a reset of a link leaves (R134), and the Clearer's beginning on an idle store (R26). -/

namespace Sys2Proof.Machine

/-! ### A link after a reset -/

/-- A link right after a reset has nothing to send. -/
theorem initial_settle (r : BitVec 2) (b : Bool) : (Link.initial r b).settle = Link.initial r b := by
  simp [Link.settle, Link.initial, Link.transmit, Link.dormancyCondition, Link.attention]

/-- The reset values of the manual's tables. -/
theorem initial_eq (r : BitVec 2) (b : Bool) : Link.initial r b = resetLink r (resetReceiver b) := by
  cases b <;> rfl

theorem initial_canTake (r : BitVec 2) (b : Bool) : (Link.initial r b).canTake = false := rfl

/-- The Clearer begins at once on the head of the clear queue when the store is idle and nothing waits (R10, R26). -/
theorem kick_finish (s : State) (f : FrameId) (rest : List FrameId) (hq : s.clearQueue = f :: rest)
   (hc : s.arbiter.current = none) (hw : s.arbiter.waiting = []) (hl : ∀ i, (s.link i).settle = s.link i)
   (ht : ∀ i, (s.link i).canTake = false) :
   s.kickClearer.finish = { s with memory := s.memory.clearFrame f, arbiter := ⟨some (.clear f), [], .clearer⟩ } := by
  have h1 : s.kickClearer = { s with arbiter := { s.arbiter with waiting := [.clearer] } } := by
    unfold State.kickClearer
    rw [if_neg (by simp [hq, Arbiter.clearing, hc])]
    simp [State.present, hw]
  have h2 : s.kickClearer.arbitrate 6 = { s with memory := s.memory.clearFrame f, arbiter := ⟨some (.clear f), [], .clearer⟩ } := by
    rw [h1]
    have hn : (Arbiter.next { s.arbiter with waiting := [.clearer] }) = some .clearer := by
      unfold Arbiter.next
      generalize s.arbiter.lastServed = l
      rcases l with ⟨⟨⟩⟩ | _ | _ | _ <;> rfl
    rw [State.arbitrate]
    rw [if_neg (by simp [hc])]
    dsimp only
    rw [hn]
    dsimp only
    rw [arbitrate_busy]
    · simp [State.grant, State.runAccess, hq, State.begin]
    · simp [State.grant, State.runAccess, hq, State.begin]
  have h3 : s.kickClearer.endEvent = { s with memory := s.memory.clearFrame f, arbiter := ⟨some (.clear f), [], .clearer⟩ } := by
    unfold State.endEvent; rw [h2]
    have h0 := hl .link0
    have h1 := hl .link1
    unfold State.link at h0 h1
    dsimp only at h0 h1
    simp only [State.settle, h0, h1]
  rw [finish_of_taken, h3]
  intro i; rw [h3]
  have := ht i
  cases i <;> exact this

/-- A link reset is what Table 7-3 says of it (R134). -/
theorem linkReset_eq (s : State) (i : LinkId) (b : Bool) : s.linkReset i b = s.unlinked i (resetReceiver b) := by
  unfold State.linkReset State.unlinked
  have hj : ∀ j : CopyJob, j.dropLink i = { j with
          waiters := j.waiters.filter fun k => k.1 ≠ i
          kind := match j.kind with
            | .privateCopy p => .privateCopy p
            | .move r => .move (r.filter fun q => q.1 ≠ i) } := by
    intro j
    unfold CopyJob.dropLink
    rcases j with ⟨⟨p⟩ | ⟨_ | ⟨r, tag⟩⟩, _, _, _, _⟩
    · rfl
    · rfl
    · by_cases h : r = i <;> simp [h, Option.filter]
  simp only [hj]
  rw [initial_eq]
  congr 1
  unfold State.withdraw dropRequests Engine.dropLink
  rcases h : s.scrub.engine with _ | ⟨f, _ | ⟨j, tag⟩ | _⟩ <;> rfl

/-- The end of an event that leaves nothing to grant, to take or to send. -/
theorem finish_of_settled (s : State) (hs : s.arbiter.current.isSome = true ∨ s.arbiter.waiting = [])
   (hl : ∀ i, (s.link i).settle = s.link i) (ht : ∀ i, (s.link i).canTake = false) : s.finish = s := by
  rw [finish_eq_settle _ hs ht]
  have h0 := hl .link0
  have h1 := hl .link1
  unfold State.link at h0 h1
  dsimp only at h0 h1
  simp only [State.settle, h0, h1]

/-- After a link reset of a part at rest there is nothing to grant, to take or to send. -/
theorem unlinked_finish (s : State) (h : s.Stable) (i : LinkId) (rx : Receiver) : (s.unlinked i rx).finish = s.unlinked i rx := by
  have hl : ∀ j, (s.unlinked i rx).link j = if j = i then resetLink (s.link i).rate rx else s.link j := by
    intro j; unfold State.unlinked
    by_cases hji : j = i
    · subst hji; simp
    · rw [link_setLink_other _ _ _ _ hji, if_neg hji]; cases j <;> rfl
  apply finish_of_settled
  · rcases h.store with h | h
    · left; simpa [State.unlinked] using h
    · right; simp [State.unlinked, h]
  · intro j; rw [hl]; split
    · simp [resetLink, Link.settle, Link.transmit, Link.dormancyCondition, Link.attention]
    · exact h.settled j
  · intro j; rw [hl]; split
    · rfl
    · exact h.taken j

theorem unlinked_rx (s : State) (i : LinkId) (rx rx' : Receiver) :
   (s.unlinked i rx).onLink i (fun l => { l with rx := rx' }) = s.unlinked i rx' := by
  unfold State.unlinked; cases i <;> rfl

end Sys2Proof.Machine
end

