-- ==== Sys2Proof/Laws/Store.lean ====
section
/-! SUPPORT. The laws of the Frame Store: a read after a write, what a write leaves alone, and that every operation on
the store keeps its canonical form. -/

namespace Sys2Proof.Machine

/-! ### Sparse lists -/

section Sparse

variable {α : Type} (l : List (Nat × α)) (k j : Nat) (v : α)

@[simp] theorem sparseGet_nil : sparseGet ([] : List (Nat × α)) k = none := rfl

@[simp] theorem sparseGet_put_same : sparseGet (sparsePut l k v) k = some v := by
  induction l with
  | nil => simp [sparsePut, sparseGet]
  | cons e rest ih =>
    obtain ⟨k', v'⟩ := e
    unfold sparsePut
    by_cases h1 : k < k'
    · simp [h1, sparseGet]
    · by_cases h2 : k = k'
      · simp [h2, sparseGet]
      · have : k' ≠ k := fun h => h2 h.symm
        simp [h1, h2, sparseGet, this, ih]

@[simp] theorem sparseGet_put_other (h : j ≠ k) : sparseGet (sparsePut l k v) j = sparseGet l j := by
  have hk : k ≠ j := fun e => h e.symm
  induction l with
  | nil => simp [sparsePut, sparseGet, hk]
  | cons e rest ih =>
    obtain ⟨k', v'⟩ := e
    unfold sparsePut
    by_cases h1 : k < k'
    · simp [h1, sparseGet, hk]
    · by_cases h2 : k = k'
      · subst h2; simp [sparseGet, hk]
      · simp only [h1, h2, if_false, sparseGet, ih]

@[simp] theorem sparseGet_filter (keep : Nat → Bool) :
    sparseGet (l.filter fun e => keep e.1) k = if keep k then sparseGet l k else none := by
  induction l with
  | nil => simp
  | cons e rest ih =>
    obtain ⟨k', v'⟩ := e
    rw [List.filter_cons]
    by_cases hk : keep k'
    · by_cases he : k' = k
      · subst he; simp [hk, sparseGet]
      · simp [hk, sparseGet, he, ih]
    · by_cases he : k' = k
      · subst he; simp [hk, ih]
      · simp [hk, sparseGet, he, ih]

@[simp] theorem sparseGet_drop_same : sparseGet (sparseDrop l k) k = none := by
  have := sparseGet_filter l k fun n => decide (n ≠ k)
  simpa [sparseDrop] using this

@[simp] theorem sparseGet_drop_other (h : j ≠ k) : sparseGet (sparseDrop l k) j = sparseGet l j := by
  have := sparseGet_filter l j fun n => decide (n ≠ k)
  simpa [sparseDrop, h] using this

/-- Every entry of a list with a key put is that entry or an old one of another key. -/
theorem mem_sparsePut (e : Nat × α) (h : e ∈ sparsePut l k v) : e = (k, v) ∨ e ∈ l := by
  induction l with
  | nil => simpa [sparsePut] using h
  | cons d rest ih =>
    obtain ⟨k', v'⟩ := d
    unfold sparsePut at h
    by_cases h1 : k < k'
    · simp only [h1, if_true, List.mem_cons] at h ⊢; tauto
    · by_cases h2 : k = k'
      · subst h2; simp only [lt_irrefl, if_false, if_true, List.mem_cons] at h ⊢; tauto
      · simp only [h1, if_false, h2, List.mem_cons] at h ⊢
        rcases h with h | h
        · exact Or.inr (Or.inl h)
        · rcases ih h with h | h
          · exact Or.inl h
          · exact Or.inr (Or.inr h)

theorem sparseSorted_iff : sparseSorted l = true ↔ l.Pairwise fun a b => a.1 < b.1 := by simp [sparseSorted]

theorem sorted_filter (keep : Nat × α → Bool) (h : sparseSorted l = true) : sparseSorted (l.filter keep) = true := by
  rw [sparseSorted_iff] at h ⊢; exact h.filter keep

theorem sorted_put (h : sparseSorted l = true) : sparseSorted (sparsePut l k v) = true := by
  rw [sparseSorted_iff] at h ⊢
  induction l with
  | nil => simp [sparsePut]
  | cons e rest ih =>
    obtain ⟨k', v'⟩ := e
    rw [List.pairwise_cons] at h
    unfold sparsePut
    by_cases h1 : k < k'
    · simp only [h1, if_true, List.pairwise_cons]
      refine ⟨?_, h.1, h.2⟩
      intro a ha
      rcases List.mem_cons.1 ha with rfl | ha
      · exact h1
      · exact lt_trans h1 (h.1 a ha)
    · by_cases h2 : k = k'
      · subst h2
        simp only [h1, if_false, if_true, List.pairwise_cons]
        exact ⟨h.1, h.2⟩
      · simp only [h1, h2, if_false, List.pairwise_cons]
        refine ⟨?_, ih h.2⟩
        intro a ha
        rcases mem_sparsePut rest k v a ha with rfl | ha
        · show k' < k
          omega
        · exact h.1 a ha

end Sparse

/-! ### Bytes and words -/

section Bytes

variable (m : Memory) (f g : FrameId) (o p : Nat) (b : Byte) (w : WordId) (d : BitVec 72)

theorem byteAddress_inj (ho : o < 512) (hp : p < 512) (h : byteAddress f o = byteAddress g p) : f = g ∧ o = p := by
  unfold byteAddress at h
  refine ⟨Fin.ext ?_, ?_⟩ <;> omega

theorem wordNumber_inj {v : WordId} (h : wordNumber f w = wordNumber g v) : f = g ∧ w = v := by
  unfold wordNumber at h
  have := w.isLt; have := v.isLt
  refine ⟨Fin.ext ?_, Fin.ext ?_⟩ <;> omega

@[simp] theorem writeByte_damage : (m.writeByte f o b).damage = m.damage := by unfold Memory.writeByte; split <;> rfl

@[simp] theorem writeByte_undefinedSince : (m.writeByte f o b).undefinedSince = m.undefinedSince := by
  unfold Memory.writeByte; split <;> rfl

@[simp] theorem setDamage_cells : (m.setDamage f w d).cells = m.cells := by unfold Memory.setDamage; split <;> rfl

@[simp] theorem setDamage_undefinedSince : (m.setDamage f w d).undefinedSince = m.undefinedSince := by
  unfold Memory.setDamage; split <;> rfl

/-- A byte written reads back (R2). -/
@[simp] theorem readByte_writeByte_same : (m.writeByte f o b).readByte f o = b := by
  unfold Memory.readByte
  rw [writeByte_undefinedSince]
  unfold Memory.writeByte
  split
  · rename_i h
    obtain ⟨hu, rfl⟩ := h
    simp only [sparseGet_drop_same, Option.getD_none]
    cases hs : m.undefinedSince.get f with
    | none => rfl
    | some i => simp [Memory.undefinedFrame, hs] at hu
  · simp

/-- A byte written leaves every other address. -/
theorem readByte_writeByte_address (h : byteAddress g p ≠ byteAddress f o) :
    (m.writeByte f o b).readByte g p = m.readByte g p := by
  unfold Memory.readByte
  rw [writeByte_undefinedSince]
  unfold Memory.writeByte
  split <;> simp [h]

/-- A byte written leaves every other byte of every frame. -/
theorem readByte_writeByte_other (ho : o < 512) (hp : p < 512) (h : ¬(g = f ∧ p = o)) :
    (m.writeByte f o b).readByte g p = m.readByte g p :=
  readByte_writeByte_address m f g o p b fun e => h (byteAddress_inj g f p o hp ho e)

@[simp] theorem damageOf_writeByte : (m.writeByte f o b).damageOf g w = m.damageOf g w := by
  unfold Memory.damageOf; rw [writeByte_undefinedSince, writeByte_damage]

@[simp] theorem readByte_setDamage : (m.setDamage f w d).readByte g o = m.readByte g o := by
  unfold Memory.readByte; rw [setDamage_undefinedSince, setDamage_cells]

@[simp] theorem damageOf_setDamage_same : (m.setDamage f w d).damageOf f w = d := by
  unfold Memory.damageOf
  rw [setDamage_undefinedSince]
  unfold Memory.setDamage
  split
  · rename_i h
    obtain ⟨hu, rfl⟩ := h
    simp only [sparseGet_drop_same, Option.getD_none]
    cases hs : m.undefinedSince.get f with
    | none => rfl
    | some i => simp [Memory.undefinedFrame, hs] at hu
  · simp

theorem damageOf_setDamage_other {v : WordId} (h : ¬(g = f ∧ v = w)) :
    (m.setDamage f w d).damageOf g v = m.damageOf g v := by
  have hn : wordNumber g v ≠ wordNumber f w := fun e => h (wordNumber_inj g f v e)
  unfold Memory.damageOf
  rw [setDamage_undefinedSince]
  unfold Memory.setDamage
  split <;> simp [hn]

end Bytes

/-! ### The canonical form -/

section Canonical

variable (m : Memory) (f : FrameId) (o : Nat) (b : Byte) (w : WordId) (d : BitVec 72)

/-- An entry of a store in canonical form: its frame exists, and its value is not what an unlisted one reads as. -/
def Memory.keyOk (m : Memory) (perFrame key : Nat) (zero : Bool) : Prop :=
  ∃ f : FrameId, key / perFrame = f.val ∧ (m.undefinedFrame f = true ∨ zero = false)

theorem keyOk_frameOf (perFrame key : Nat) (z : Bool) :
    ((match Memory.wf.frameOf key perFrame with
      | none => false
      | some f => m.undefinedFrame f || !z) = true) ↔ m.keyOk perFrame key z := by
  unfold Memory.wf.frameOf Memory.keyOk
  by_cases h : key / perFrame < 4096
  · simp only [h, dif_pos, Bool.or_eq_true, Bool.not_eq_true']
    constructor
    · intro hz; exact ⟨⟨key / perFrame, h⟩, rfl, hz⟩
    · rintro ⟨f, hf, hz⟩
      have : f = ⟨key / perFrame, h⟩ := Fin.ext hf.symm
      subst this; exact hz
  · simp only [h, dif_neg, not_false_iff]
    constructor
    · intro hc; exact absurd hc (by decide)
    · rintro ⟨f, hf, _⟩; have := f.isLt; omega

/-- The canonical form, in words. -/
theorem wf_iff : m.wf = true ↔ sparseSorted m.cells = true ∧ sparseSorted m.damage = true ∧
    (∀ e ∈ m.cells, m.keyOk 512 e.1 (e.2 == 0)) ∧ (∀ e ∈ m.damage, m.keyOk 64 e.1 (e.2 == 0)) := by
  unfold Memory.wf
  simp only [Bool.and_eq_true, List.all_eq_true, and_assoc]
  refine and_congr_right fun _ => and_congr_right fun _ => and_congr ?_ ?_
  · exact forall_congr' fun e => imp_congr_right fun _ => keyOk_frameOf m 512 e.1 (e.2 == 0)
  · exact forall_congr' fun e => imp_congr_right fun _ => keyOk_frameOf m 64 e.1 (e.2 == 0)

theorem keyOk_of_undefinedSince {m n : Memory} (h : n.undefinedSince = m.undefinedSince) (a k : Nat) (z : Bool) :
    n.keyOk a k z ↔ m.keyOk a k z := by
  unfold Memory.keyOk Memory.undefinedFrame; rw [h]

theorem wf_writeByte (ho : o < 512) (h : m.wf = true) : (m.writeByte f o b).wf = true := by
  rw [wf_iff] at h ⊢
  obtain ⟨h1, h2, h3, h4⟩ := h
  refine ⟨?_, by simpa using h2, ?_, ?_⟩
  · unfold Memory.writeByte; split
    · exact sorted_filter _ _ h1
    · exact sorted_put _ _ _ h1
  · intro e he
    rw [keyOk_of_undefinedSince (writeByte_undefinedSince m f o b)]
    unfold Memory.writeByte at he
    split at he
    · exact h3 e (List.mem_of_mem_filter he)
    · rename_i hz
      rcases mem_sparsePut _ _ _ _ he with rfl | he
      · refine ⟨f, ?_, ?_⟩
        · show byteAddress f o / 512 = f.val
          unfold byteAddress; omega
        · by_cases hb : b = 0
          · left; by_contra hu; exact hz ⟨by simpa using hu, hb⟩
          · right; simpa using hb
      · exact h3 e he
  · intro e he
    rw [keyOk_of_undefinedSince (writeByte_undefinedSince m f o b)]
    exact h4 e (by simpa using he)

theorem wf_setDamage (h : m.wf = true) : (m.setDamage f w d).wf = true := by
  rw [wf_iff] at h ⊢
  obtain ⟨h1, h2, h3, h4⟩ := h
  refine ⟨by simpa using h1, ?_, ?_, ?_⟩
  · unfold Memory.setDamage; split
    · exact sorted_filter _ _ h2
    · exact sorted_put _ _ _ h2
  · intro e he
    rw [keyOk_of_undefinedSince (setDamage_undefinedSince m f w d)]
    exact h3 e (by simpa using he)
  · intro e he
    rw [keyOk_of_undefinedSince (setDamage_undefinedSince m f w d)]
    unfold Memory.setDamage at he
    split at he
    · exact h4 e (List.mem_of_mem_filter he)
    · rename_i hz
      rcases mem_sparsePut _ _ _ _ he with rfl | he
      · refine ⟨f, ?_, ?_⟩
        · show wordNumber f w / 64 = f.val
          unfold wordNumber; omega
        · by_cases hb : d = 0
          · left; by_contra hu; exact hz ⟨by simpa using hu, hb⟩
          · right; simpa using hb
      · exact h4 e he

theorem wf_freshen (h : m.wf = true) : (m.freshen f w).wf = true := wf_setDamage m f w 0 h

theorem wf_strike (i : BitId) (h : m.wf = true) : (m.strike f w i).wf = true := wf_setDamage m f w _ h

/-- A property every step of a fold keeps is kept by the fold. -/
theorem foldl_keeps {α β : Type} (P : β → Prop) (step : β → α → β) (l : List α)
    (keep : ∀ x, ∀ a ∈ l, P x → P (step x a)) (x : β) (h : P x) : P (l.foldl step x) := by
  induction l generalizing x with
  | nil => exact h
  | cons a rest ih =>
    exact ih (fun y c hc => keep y c (List.mem_cons_of_mem _ hc)) _ (keep x a List.mem_cons_self h)

theorem wf_writeBack (es : List ErrorEvent) (h : m.wf = true) : (m.writeBack es).wf = true := by
  refine foldl_keeps (fun x : Memory => x.wf = true) _ es ?_ m h
  intro x e _ hx
  split
  · exact hx
  · exact wf_freshen x _ _ hx

theorem wf_writePart (p : Part) (bytes : List Byte) (hp : p.offset + p.count ≤ 512) (h : m.wf = true) :
    (m.writePart p bytes).wf = true := by
  refine foldl_keeps (fun x : Memory => x.wf = true) _ _ ?_ m h
  intro x i hi hx
  have := List.mem_range.1 hi
  exact wf_writeByte x _ _ _ (by omega) hx

theorem wf_writeParts (parts : List Part) (bytes : List Byte) (hp : ∀ p ∈ parts, p.offset + p.count ≤ 512)
    (h : m.wf = true) : (m.writeParts parts bytes).wf = true := by
  induction parts generalizing m bytes with
  | nil => exact h
  | cons p rest ih =>
    exact ih _ _ (fun q hq => hp q (List.mem_cons_of_mem _ hq))
      (wf_writePart m p bytes (hp p List.mem_cons_self) h)

theorem wf_segmentRead (parts : List Part) (h : m.wf = true) : (m.segmentRead parts).1.wf = true :=
  wf_writeBack m _ h

theorem wf_segmentWrite (parts : List Part) (bytes : List Byte) (hp : ∀ p ∈ parts, p.offset + p.count ≤ 512)
    (h : m.wf = true) : (m.segmentWrite parts bytes).1.wf = true := by
  unfold Memory.segmentWrite
  dsimp only
  split
  · exact wf_writeBack m _ h
  · refine foldl_keeps (fun x : Memory => x.wf = true) _ _ ?_ _ (wf_writeParts m parts bytes hp h)
    intro x a _ hx
    exact wf_freshen x _ _ hx

theorem undefinedFrame_clearFrame (g : FrameId) :
    (m.clearFrame f).undefinedFrame g = (if g = f then false else m.undefinedFrame g) := by
  unfold Memory.undefinedFrame Memory.clearFrame
  by_cases h : g = f
  · subst h; simp [Vector.get_eq_getElem]
  · have : f.val ≠ g.val := fun e => h (Fin.ext e.symm)
    simp [Vector.get_eq_getElem, Vector.getElem_set_ne, this, h]

theorem wf_clearFrame (h : m.wf = true) : (m.clearFrame f).wf = true := by
  rw [wf_iff] at h ⊢
  obtain ⟨h1, h2, h3, h4⟩ := h
  refine ⟨sorted_filter _ _ h1, sorted_filter _ _ h2, ?_, ?_⟩
  · intro e he
    simp only [Memory.clearFrame, List.mem_filter, decide_eq_true_eq] at he
    obtain ⟨g, hg, hz⟩ := h3 e he.1
    refine ⟨g, hg, ?_⟩
    rw [undefinedFrame_clearFrame, if_neg (fun x => he.2 (by rw [hg, x]))]
    exact hz
  · intro e he
    simp only [Memory.clearFrame, List.mem_filter, decide_eq_true_eq] at he
    obtain ⟨g, hg, hz⟩ := h4 e he.1
    refine ⟨g, hg, ?_⟩
    rw [undefinedFrame_clearFrame, if_neg (fun x => he.2 (by rw [hg, x]))]
    exact hz

theorem wf_copyData (source target : FrameId) (h : m.wf = true) : (m.copyData source target).wf = true := by
  refine foldl_keeps (fun x : Memory => x.wf = true) _ _ ?_ _ (wf_clearFrame m target h)
  intro x i hi hx
  exact wf_writeByte x _ _ _ (List.mem_range.1 hi) hx

theorem wf_frameCopy (source target : FrameId) (h : m.wf = true) : (m.frameCopy source target).1.wf = true := by
  unfold Memory.frameCopy
  dsimp only
  split
  · exact wf_writeBack m _ h
  · exact wf_copyData _ _ _ (wf_writeBack m _ h)

theorem wf_frameCheck (h : m.wf = true) : (m.frameCheck f).1.wf = true := wf_writeBack m _ h

/-- What a reset leaves of the store: a kept frame is undefined where it was, another since this reset. -/
theorem undefinedSince_forget (kept : Vector Bool 4096) (index : Nat) :
    (m.forget kept index).undefinedSince.get f =
      if kept.get f then m.undefinedSince.get f else some index := by
  unfold Memory.forget
  simp [Vector.get_eq_getElem]

theorem keeps_iff (kept : Vector Bool 4096) (n : Nat) (hn : n = f.val) :
    Memory.forget.keeps kept n = kept.get f := by
  subst hn
  unfold Memory.forget.keeps
  simp [Vector.get_eq_getElem]

theorem wf_forget (kept : Vector Bool 4096) (index : Nat) (h : m.wf = true) : (m.forget kept index).wf = true := by
  rw [wf_iff] at h ⊢
  obtain ⟨h1, h2, h3, h4⟩ := h
  refine ⟨sorted_filter _ _ h1, sorted_filter _ _ h2, ?_, ?_⟩
  · intro e he
    simp only [Memory.forget, List.mem_filter] at he
    obtain ⟨g, hg, hz⟩ := h3 e he.1
    have hk := keeps_iff g kept _ hg
    refine ⟨g, hg, ?_⟩
    unfold Memory.undefinedFrame
    rw [undefinedSince_forget, ← hk, he.2]
    exact hz
  · intro e he
    simp only [Memory.forget, List.mem_filter] at he
    obtain ⟨g, hg, hz⟩ := h4 e he.1
    have hk := keeps_iff g kept _ hg
    refine ⟨g, hg, ?_⟩
    unfold Memory.undefinedFrame
    rw [undefinedSince_forget, ← hk, he.2]
    exact hz

/-- An empty store is in canonical form, whatever its frames read as. -/
theorem wf_empty (u : Vector (Option Nat) 4096) :
    (Memory.wf { cells := [], damage := [], undefinedSince := u }) = true := by
  rw [wf_iff]
  exact ⟨rfl, rfl, fun e he => absurd he (by simp), fun e he => absurd he (by simp)⟩

end Canonical

/-! ### A clear and a read (R3, R8) -/

/-- A frame after its clear reads zero in every byte (R8). -/
theorem readByte_clearFrame_same (m : Memory) (f : FrameId) (o : Nat) (ho : o < 512) :
    (m.clearFrame f).readByte f o = 0 := by
  unfold Memory.readByte Memory.clearFrame
  have hn : byteAddress f o / 512 = f.val := by unfold byteAddress; omega
  have := sparseGet_filter m.cells (byteAddress f o) fun n => decide (n / 512 ≠ f.val)
  simp only [hn, ne_eq, not_true, decide_false, Bool.false_eq_true, if_false] at this
  simp only [ne_eq] at this ⊢
  rw [this]
  simp [Vector.get_eq_getElem]

/-- A clear leaves every other frame (R8). -/
theorem readByte_clearFrame_other (m : Memory) (f g : FrameId) (o : Nat) (ho : o < 512) (h : g ≠ f) :
    (m.clearFrame f).readByte g o = m.readByte g o := by
  unfold Memory.readByte Memory.clearFrame
  have hv : f.val ≠ g.val := fun e => h (Fin.ext e.symm)
  have hn : byteAddress g o / 512 = g.val := by unfold byteAddress; omega
  have := sparseGet_filter m.cells (byteAddress g o) fun n => decide (n / 512 ≠ f.val)
  simp only [hn, ne_eq, Ne.symm hv, not_false_iff, decide_true, if_true] at this
  simp only [ne_eq] at this ⊢
  rw [this]
  simp [Vector.get_eq_getElem, Vector.getElem_set_ne, hv]

/-- After its clear a frame has no damaged word (R8). -/
theorem damageOf_clearFrame_same (m : Memory) (f : FrameId) (w : WordId) : (m.clearFrame f).damageOf f w = 0 := by
  unfold Memory.damageOf Memory.clearFrame
  have hn : wordNumber f w / 64 = f.val := by unfold wordNumber; omega
  have := sparseGet_filter m.damage (wordNumber f w) fun n => decide (n / 64 ≠ f.val)
  simp only [hn, ne_eq, not_true, decide_false, Bool.false_eq_true, if_false] at this
  simp only [ne_eq] at this ⊢
  rw [this]
  simp [Vector.get_eq_getElem]

end Sys2Proof.Machine
end

