-- ==== Sys2Proof/Tests/Slice0.lean ====
section
/-! SUPPORT. Tests: the checks of WellFormed, worked values of the manual run through the model, and for each statement of
Certificates/Slice0/Obligations.lean with hypotheses a state and operands that meet them (`witness_…`). -/

namespace Sys2Proof.Tests

open Sys2Proof Sys2Proof.Machine

-- One theorem at a time: many kernel evaluations at once exceed the memory of a check.
set_option Elab.async false

/-! ### States for tests -/

/-- A link right after its HELLO. -/
def upLink : Link := { Link.initial 0 false with state := .up }

/-- A frame record with nothing but its state. -/
def record (state : FrameState) : FrameRecord := { FrameRecord.initial with state := state }

/-- Space 1: eight pages, owned by Link 0, guest right READ; page 7 is absent. -/
def spaceA : SpaceRecord :=
  { size := 8, owner := .link0, guest := .read,
    pages := (((((((Vector.replicate 256 none).set 0 (some ⟨0, false, false, false, false⟩)).set 1
      (some ⟨1, false, true, false, false⟩)).set 2 (some ⟨1, false, false, true, false⟩)).set 3
      (some ⟨2, false, false, false, false⟩)).set 4 (some ⟨3, false, false, false, false⟩)).set 5
      (some ⟨4, false, false, false, true⟩)).set 6 (some ⟨10, true, false, false, false⟩) }

/-- Space 2: 256 pages, owned by Link 1, guest right WRITE, all pages absent. -/
def spaceB : SpaceRecord := { size := 256, owner := .link1, guest := .write, pages := Vector.replicate 256 none }

/-- Space 3: one page, owned by Link 1, no guest right. -/
def spaceC : SpaceRecord := { size := 1, owner := .link1, guest := .none, pages := Vector.replicate 256 none }

/-- A part in use: both links UP, a clear of frame 4095 in progress. Frame 0 is HELD, frame 1 shared, frame 2 moving,
frame 3 poisoned, frame 4 under a copy-pending page, frames 5 to 7 FREE, frame 8 TARGET, frame 9 RETIRED and frame 10 under
a write-protected page. -/
def base : State :=
  { State.reset with
    arbiter := { current := some (.clear 4095), waiting := [], lastServed := .clearer }
    frames := (((((((((((Vector.replicate 4096 FrameRecord.initial).set 0 (record (.held [(0, 0)]))).set 1
      (record (.held [(0, 1), (0, 2)]))).set 2 { record (.held [(0, 3)]) with moving := true }).set 3
      { record (.held [(0, 4)]) with poisoned := true }).set 4 (record (.held [(0, 5)]))).set 5 (record .free)).set 6
      (record .free)).set 7 (record .free)).set 8 (record .target)).set 9 (record .retired)).set 10
      (record (.held [(0, 6)]))
    clearQueue := [4095]
    freeQueue := [5, 6, 7]
    scrub := { Scrubber.initial with retired := [9] }
    spaces := (((Vector.replicate 16 none).set 0 (some spaceA)).set 1 (some spaceB)).set 2 (some spaceC)
    link0 := upLink
    link1 := upLink }

/-- A transfer on space 1, of 600 bytes from address 500. -/
def transfer (direction : Direction) : Transfer :=
  { phase := .data, direction := direction, space := 0, counted := true, start := 500, length := 600, position := 0,
    toggle := false, last := none, timer := .running }

/-- `base` with slot 0 of Link 0 as given. -/
def withSlot (t : Transfer) : State := base.setSlot (.link0, 0) (.active t)

/-- `base` with Link 0 changed. -/
def withLink (change : Link → Link) : State := base.onLink .link0 change

/-- `base` with frame 0 changed. -/
def withFrame0 (r : FrameRecord) : State := base.setFrame 0 r

/-- The copy jobs of a part whose copy queue is full. -/
def eightJobs : List CopyJob :=
  List.replicate 8 { kind := .move none, source := 2, target := 8, waiters := [], phase := .queued }

/-- `base` with copy jobs whose first copy waits for the store. -/
def withJobs (jobs : List CopyJob) : State :=
  { base with jobs := jobs, arbiter := { base.arbiter with waiting := [.copyEngine] } }

/-- The state after a command. -/
def after (c : Instr) (s : State) : State :=
  match exec c s with
  | .next t => t
  | .fault _ => s
  | .refused _ => s

/-- Whether a state is at rest: `State.Stable`, decided. -/
def rest (s : State) : Bool :=
  s.link0.settle = s.link0 && s.link1.settle = s.link1 && (s.arbiter.current.isSome || s.arbiter.waiting = []) &&
    !s.link0.canTake && !s.link1.canTake &&
    (s.clearQueue = [] || s.arbiter.clearing || s.arbiter.waiting.contains .clearer) &&
    (s.jobs = [] || s.arbiter.waiting.contains .copyEngine) &&
    (s.scrub.engine = .idle || s.arbiter.waiting.contains .scrubber) &&
    (s.scrub.engine != .idle || (s.scrub.checkQueue = [] && s.scrub.walkTimer != .due))

theorem stable_of_rest {s : State} (h : rest s = true) : s.Stable := by
  simp only [rest, Bool.and_eq_true, Bool.or_eq_true, decide_eq_true_eq, List.contains_iff_mem,
    Bool.not_eq_true', bne_iff_ne] at h
  obtain ⟨⟨⟨⟨⟨⟨⟨⟨h0, h1⟩, h2⟩, h3⟩, h4⟩, h5⟩, h6⟩, h7⟩, h8⟩ := h
  exact ⟨fun i => by cases i <;> assumption, h2, fun i => by cases i <;> assumption, or_assoc.1 h5,
    h6.imp_right Or.inr, h7.imp_right Or.inr, h8.resolve_left ∘ not_not_intro⟩

/-- Whether a link can answer a request with a tag at once: `State.Ready`, decided. -/
def canAnswer (s : State) (i : LinkId) (tag : Byte) : Bool :=
  rest s && s.receiving i && (s.link i).state = .up && (s.link i).generalOccupied < 8 && (s.link i).segment = none &&
    tag != 0 && (s.link i).deferred.all fun e => e.tag != tag

theorem ready_of_canAnswer {s : State} {i : LinkId} {tag : Byte} (h : canAnswer s i tag = true) : s.Ready i tag := by
  simp only [canAnswer, Bool.and_eq_true, decide_eq_true_eq, bne_iff_ne, List.all_eq_true] at h
  obtain ⟨⟨⟨⟨⟨⟨h0, h1⟩, h2⟩, h3⟩, h4⟩, h5⟩, h6⟩ := h
  exact ⟨stable_of_rest h0, h1, h2, h3, h4, h5, h6⟩

theorem base_ready : base.Ready .link0 5 := ready_of_canAnswer (by decide +kernel)

/-! ### Well-formed commands -/

/-- A payload byte list of the given length. -/
def bytes (n : Nat) : List Byte := List.replicate n 0xA5

/-- A payload of 73 bytes fits no link frame (R116). -/
theorem test_wellFormed_payload :
    ([.badKindMessage .link0 0x55 1 (bytes 73), .hello .link0 1 (bytes 73), .goodbye .link0 1 (bytes 73),
      .wake .link0 1 (bytes 73), .configNoticeMask .link0 1 (bytes 72), .configDormancyInterval .link0 1 (bytes 72),
      .configSlotTimeout .link0 1 (bytes 72), .configScrubInterval .link0 1 (bytes 72),
      .configRetireThreshold .link0 1 (bytes 72), .configLowMark .link0 1 (bytes 72),
      .configQuery .link0 1 0 (bytes 72), .linkStatus .link0 1 (bytes 73), .partStatus .link0 1 (bytes 73),
      .spaceCreate .link0 1 (bytes 73), .spaceDestroy .link0 1 (bytes 73), .spaceGrant .link0 1 (bytes 73),
      .spaceInfo .link0 1 (bytes 73), .map .link0 1 (bytes 73), .unmap .link0 1 (bytes 73), .protect .link0 1 (bytes 73),
      .clone .link0 1 (bytes 73), .usage .link0 1 (bytes 73), .openSlot .link0 1 (bytes 73), .seg .link0 1 (bytes 73),
      .closeSlot .link0 1 (bytes 73), .slotInfo .link0 1 (bytes 73), .frameInfo .link0 1 (bytes 73),
      .retire .link0 1 (bytes 73), .check .link0 1 (bytes 73), .waitFree .link0 1 (bytes 73)] : List Instr).all
      (fun c => !c.wellFormed) = true := by decide +kernel

/-- A row that names a condition of a byte refuses a byte without it, and 72 payload bytes fit. -/
theorem test_wellFormed_bytes :
    (Instr.linkFrameLenDiscard .link0 72).wellFormed = false ∧ (Instr.linkFrameLenDiscard .link0 73).wellFormed = true ∧
    (Instr.badKindMessage .link0 0x21 1 []).wellFormed = false ∧ (Instr.waitFreeTimerExpiry .link0 0).wellFormed = false ∧
    (Instr.seg .link0 1 (bytes 72)).wellFormed = true ∧ (Instr.configLowMark .link0 1 (bytes 71)).wellFormed = true := by
  decide +kernel

/-- The table gives no row any bits (log 15). -/
theorem test_decode : (decodeTableWord 8 0).isNone = true ∧ (decodeTableWord 16 0xFFFF).isNone = true := by decide

/-! ### Witnesses: steps and invariants -/

/-- A command on a concrete state answers a next state. -/
theorem witness_ExecKeepsQueue : ∃ t, exec (.partStatus .link0 1 []) base = .next t := ⟨_, rfl⟩

theorem witness_StepKeepsStable :
    State.Stable { base with pending := [.wake .link0 1 []] } ∧
      ∃ t, step { base with pending := [.wake .link0 1 []] } = .next t :=
  ⟨stable_of_rest (by decide +kernel), _, rfl⟩

/-- An UP link with one deferred request and one pending notice is lawful. -/
theorem lawful_upLink : Link.Lawful { upLink with
    deferred := [{ tag := 1, kind := .check, answered := false }], notices := [.slotReady 1] } := by
  constructor <;> simp [upLink, Link.initial, Notice.classCode, Link.generalOccupied]

theorem witness_StepKeepsLinksLawful :
    let l : Link := { upLink with
      deferred := [{ tag := 1, kind := .check, answered := false }], notices := [.slotReady 1] }
    let s : State := { base with link0 := l, link1 := l, pending := [.wake .link0 1 []] }
    (∀ i, (s.link i).Lawful) ∧ ∃ t, step s = .next t :=
  ⟨fun i => by cases i <;> exact lawful_upLink, _, rfl⟩

/-- A part with one mapped page: frame 0 HELD by page 0 of space 1, frame 1 FREE, every other frame CLEARING, and every
byte 0. -/
def mapped : State :=
  (({ State.reset with
      memory := { cells := [], damage := [], undefinedSince := Vector.replicate 4096 none }
      arbiter := { current := none, waiting := [], lastServed := .clearer }
      freeQueue := [1]
      clearQueue := (List.finRange 4096).filter fun f => f ≠ 0 ∧ f ≠ 1 }.setFrame 0
        (record (.held [(0, 0)]))).setFrame 1 (record .free)).setSpace 0
    (some { size := 1, owner := .link0, guest := .none,
            pages := (Vector.replicate 256 none).set 0 (some ⟨0, false, false, false, false⟩) })

theorem mapped_frame (f : FrameId) :
    mapped.frame f = if f = 1 then record .free else if f = 0 then record (.held [(0, 0)])
      else FrameRecord.initial := by
  rw [mapped, frame_setSpace, frame_setFrame, frame_setFrame]
  split
  · rfl
  · split
    · rfl
    · simp [State.frame, State.reset, Vector.get]

theorem mapped_entry (p : BackRef) :
    mapped.entry p = if p = (0, 0) then some ⟨0, false, false, false, false⟩ else none := by
  obtain ⟨sp, n⟩ := p
  unfold State.entry
  rw [mapped, space_setSpace]
  split_ifs with h1 h2 h2
  · simp_all [Vector.get]
  · have h : n ≠ 0 := by rintro rfl; exact h2 (by rw [← h1])
    have : (0 : Nat) ≠ n.val := fun e => h (Fin.ext e.symm)
    simp only [Option.bind_some, Vector.get, Fin.val_cast]
    simp [this]
  · simp_all
  · simp [State.space, State.setFrame, State.reset, Vector.get]

/-- The commands that wait play no part in consistency. -/
theorem consistent_pending (s : State) (l : List Instr) (h : s.Consistent) :
    State.Consistent { s with pending := l } := by
  cases h; constructor <;> assumption

theorem jobs_mapped : mapped.jobs = [] := rfl

/-- One step of each of three commands from any state answers a next state. -/
theorem step_next (s : State) :
    (∃ t, step { s with pending := [.walkTimerExpiry] } = .next t) ∧
    (∃ t, step { s with pending := [.wake .link0 1 []] } = .next t) ∧
    ∃ t, step { s with pending := [.storageFault 4095 63 71] } = .next t := ⟨⟨_, rfl⟩, ⟨_, rfl⟩, _, rfl⟩

theorem mapped_consistent : mapped.Consistent := by
  have hs : ∀ f : FrameId, (mapped.frame f).state =
      if f = 1 then .free else if f = 0 then .held [(0, 0)] else .clearing := by
    intro f; rw [mapped_frame]; split_ifs <;> rfl
  have hm : ∀ f : FrameId, (mapped.frame f).moving = false := by
    intro f; rw [mapped_frame]; split_ifs <;> rfl
  have hp : ∀ f : FrameId, (mapped.frame f).poisoned = false := by
    intro f; rw [mapped_frame]; split_ifs <;> rfl
  have hr : ∀ f : FrameId, (mapped.frame f).state.refs = if f = 0 then [(0, 0)] else [] := by
    intro f; rw [hs]; split_ifs <;> simp_all [FrameState.refs]
  constructor <;> (try simp only [hr]) <;> try simp only [jobs_mapped, hs, hm, hp, mapped_entry]
  · simpa [mapped] using (List.nodup_finRange 4096).filter _
  · exact List.nodup_singleton _
  · exact List.nodup_nil
  · intro f; by_cases h1 : f = 1 <;> by_cases h : f = 0 <;> simp [h, h1, mapped]
  · intro f; by_cases h1 : f = 1 <;> by_cases h : f = 0 <;> simp [h, h1, mapped, State.setFrame, State.setSpace]
  · intro f; by_cases h1 : f = 1 <;> by_cases h : f = 0 <;> simp [h, h1, mapped, State.reset, Scrubber.initial]
  · intro f; by_cases h1 : f = 1 <;> by_cases h : f = 0 <;> simp [h, h1]
  · exact List.nodup_nil
  · intro p e h
    split at h
    · cases h; simp_all
    · cases h
  · intro f p h
    by_cases hf : f = 0
    · subst hf; simp at h; subst h; exact ⟨_, rfl, rfl⟩
    · simp [hf] at h
  · intro f; by_cases h : f = 0 <;> simp [h]
  · intro f; by_cases h1 : f = 1 <;> by_cases h : f = 0 <;> simp [h, h1]
  · simp
  · simp
  · simp
  · intro p e h
    split at h
    · cases h; simp
    · cases h
  · simp
  · intro f h; cases h
  · simp
  · intro a b es h; cases h
  · intro a es h; cases h

/-- Every byte of `mapped` reads 0. -/
theorem mapped_readsZero (l : List Instr) : State.FreeReadsZero { mapped with pending := l } :=
  ⟨fun f o _ _ => by simp [Memory.readByte, mapped, State.setFrame, State.setSpace, Vector.get],
   fun _ _ h => by cases h⟩

/-- The commands that wait play no part in a link. -/
theorem link_pending (s : State) (l : List Instr) (i : LinkId) : State.link { s with pending := l } i = s.link i := by
  cases i <;> rfl

/-- The links of `mapped` are right after power-on. -/
theorem mapped_lawful (l : List Instr) (i : LinkId) : (State.link { mapped with pending := l } i).Lawful := by
  have h : mapped.link i = Link.initial 0 false := by
    cases i <;> rfl
  have h' : State.link { mapped with pending := l } i = Link.initial 0 false := (link_pending mapped l i).trans h
  rw [h']
  constructor <;> simp [Link.initial, Link.generalOccupied, Vector.get]

theorem witness_StepKeepsConsistent :
    let s : State := { mapped with pending := [.walkTimerExpiry] }
    s.Consistent ∧ (∀ i, (s.link i).Lawful) ∧ s.FreeReadsZero ∧ (mapped.frame 1).state = .free ∧ ∃ t, step s = .next t :=
  ⟨consistent_pending _ _ mapped_consistent, mapped_lawful _, mapped_readsZero _, by
    rw [mapped_frame]; rfl, (step_next mapped).1⟩

theorem witness_FrameCountsSum : mapped.Consistent := mapped_consistent

theorem witness_StepKeepsMemoryForm :
    let s : State := { mapped with pending := [.storageFault 4095 63 71] }
    (∀ i, (s.link i).Lawful) ∧ s.memory.wf = true ∧ ∃ t, step s = .next t :=
  ⟨mapped_lawful _, wf_empty _, (step_next mapped).2.2⟩

/-- A part at the ends of the ranges: a discretionary count of 256, eight jobs, a scrub interval of 1000, a threshold of
15, a low mark of 4095, a share count of 64, and a LIVE space of 256 pages. -/
def atBounds (s : State) : State :=
  (State.setFrame
    { s with
      jobs := eightJobs, lowMark := 4095
      scrub := { Scrubber.initial with discretionary := 256, interval := 1000, threshold := 15 } } 2
    (record (.held (List.replicate 64 (0, 0))))).setSpace 1 (some spaceB)

theorem atBounds_ranges (s : State) :
    (atBounds s).scrub.discretionary = 256 ∧ (atBounds s).jobs.length = 8 ∧ (atBounds s).scrub.interval = 1000 ∧
      (atBounds s).scrub.threshold = 15 ∧ (atBounds s).lowMark = 4095 := ⟨rfl, rfl, rfl, rfl, rfl⟩

theorem space_atBounds (s : State) (sp : SpaceId) :
    (atBounds s).space sp = if sp = 1 then some spaceB else s.space sp := by
  rw [atBounds, space_setSpace]; rfl

theorem frame_atBounds (s : State) (f : FrameId) :
    (atBounds s).frame f = if f = 2 then record (.held (List.replicate 64 (0, 0))) else s.frame f := by
  rw [atBounds, frame_setSpace, frame_setFrame]; rfl

theorem mapped_space (sp : SpaceId) (h : sp ≠ 0) : mapped.space sp = none := by
  rw [mapped, space_setSpace, if_neg h]
  simp [State.space, State.setFrame, State.reset, Vector.get]

theorem bounded_atBounds : (atBounds mapped).Bounded := by
  obtain ⟨h1, h2, h3, h4, h5⟩ := atBounds_ranges mapped
  have size : ∀ sp r, (atBounds mapped).space sp = some r → r = spaceB ∨ (sp = 0 ∧ r.size = 1) := by
    intro sp r h
    rw [space_atBounds] at h
    split_ifs at h
    · exact Or.inl (Option.some.inj h).symm
    · by_cases h0 : sp = 0
      · subst h0
        rw [mapped, space_setSpace_same] at h
        exact Or.inr ⟨rfl, (Option.some.inj h) ▸ rfl⟩
      · rw [mapped_space sp h0] at h; cases h
  refine ⟨h1.le, h2.le, fun f => ?_, h3.le, ⟨by rw [h4]; decide, h4.le⟩, h5.le, fun sp r h => ?_, fun sp r h p hp => ?_,
    fun f => ?_⟩
  · rw [frame_atBounds, mapped_frame]; split_ifs <;> decide
  · rcases size sp r h with rfl | ⟨-, h⟩
    · decide
    · rw [h]; decide
  · rcases size sp r h with rfl | ⟨rfl, h0⟩
    · exact absurd p.isLt (Nat.not_lt.2 hp)
    · have he : (atBounds mapped).entry (0, p) = mapped.entry (0, p) := by
        exact congrArg (Option.bind · fun r => r.pages.get p) (space_atBounds mapped 0)
      rw [he, mapped_entry, if_neg]
      rintro h'
      have : p = 0 := by simpa using h'
      rw [h0, this] at hp
      exact absurd hp (by decide)
  · rw [frame_atBounds, mapped_frame]; split_ifs <;> decide

/-- The commands that wait play no part in the ranges. -/
theorem bounded_pending (s : State) (l : List Instr) (h : s.Bounded) : State.Bounded { s with pending := l } := by
  cases h; constructor <;> assumption

theorem witness_StepKeepsBounded :
    let s : State := { atBounds mapped with pending := [.walkTimerExpiry] }
    s.Bounded ∧ ∃ t, step s = .next t := ⟨bounded_pending _ _ bounded_atBounds, (step_next (atBounds mapped)).1⟩

/-! ### Witnesses: resets -/

theorem witness_ReleaseSamplesStraps : ({ State.reset with resetLow := true }).resetLow = true := rfl

/-- `base` with Link 0's RXD low and its line-low timer running, and with the GOODBYE reply being sent on Link 0. -/
theorem witness_LinkResetsClear :
    (let s := withLink fun l => { l with rx := Receiver.lineLow }
     s.Stable ∧ s.resetLow = false ∧ (s.link .link0).rx.state = .low ∧ (s.link .link0).rx.lowTimer = .running) ∧
    let m : Outgoing := { kind := 0x82, tag := 9, payload := [0], place := .general }
    let s := withLink fun l => { l with sending := some m }
    s.Stable ∧ (s.link .link0).sending = some m ∧ m.kind = 0x82 ∧ m.place = .general :=
  ⟨⟨stable_of_rest (by decide +kernel), by decide +kernel⟩, stable_of_rest (by decide +kernel), by decide +kernel⟩

/-! ### Witnesses: framing -/

/-- A bit list of a byte, and the longest payload. -/
theorem witness_CheckCode :
    let b : Byte := 0x80
    [b.getLsbD 7, b.getLsbD 6, b.getLsbD 5, b.getLsbD 4, b.getLsbD 3, b.getLsbD 2, b.getLsbD 1, b.getLsbD 0] =
      [true, false, false, false, false, false, false, false] := by decide

/-- A payload of 72 bytes on a receiver in HUNT. -/
theorem witness_WireCarriesMessage :
    messageOf (.seg .link0 1 (bytes 72)) = some (.link0, ⟨0x21, 1, bytes 72⟩) ∧ (bytes 72).length ≤ 72 ∧
    base.receiving .link0 = true ∧ (base.link .link0).rx.state = .hunt := ⟨rfl, by decide +kernel⟩

/-- `base` with a receiver that has kept some bytes of a link frame. -/
def receiving (state : RxState) (kept : List Byte) : State :=
  withLink fun l => { l with rx := { Receiver.hunting with
    state := state, kept := kept, crc := crcBytes 0xFFFF kept, gapTimer := .running } }

/-- Each receiver state at its first and last byte: a LEN of 72 and of 0, the last payload byte, and the two CHECK bytes of
HELLO with tag 1 and version 1. -/
theorem witness_ReceiverTakesByte :
    (base.receiving .link0 = true ∧ (base.link .link0).rx.state = .hunt) ∧
    (∀ s ∈ [receiving .header [], receiving .header [1]],
      s.receiving .link0 = true ∧ (s.link .link0).rx.state = .header ∧ (s.link .link0).rx.kept.length < 2) ∧
    (let s := receiving .header [1, 1]
     s.receiving .link0 = true ∧ (s.link .link0).rx.state = .header ∧ (s.link .link0).rx.kept.length = 2 ∧
       (72 : Byte).toNat ≤ 72) ∧
    (let s := receiving .payload [1, 1, 2]
     s.receiving .link0 = true ∧ (s.link .link0).rx.state = .payload ∧
       (s.link .link0).rx.kept.length + 1 < 3 + ((s.link .link0).rx.kept.getD 2 0).toNat) ∧
    (let s := receiving .payload [1, 1, 1]
     s.receiving .link0 = true ∧ (s.link .link0).rx.state = .payload ∧
       (s.link .link0).rx.kept.length + 1 = 3 + ((s.link .link0).rx.kept.getD 2 0).toNat) ∧
    (let s := receiving .check [1, 1, 1, 1]
     s.receiving .link0 = true ∧ (s.link .link0).rx.state = .check ∧
       (s.link .link0).rx.kept.length = 3 + ((s.link .link0).rx.kept.getD 2 0).toNat) ∧
    (let s := receiving .check [1, 1, 1, 1, 0xE6]
     s.receiving .link0 = true ∧ (s.link .link0).rx.state = .check ∧
       (s.link .link0).rx.kept.length = 4 + ((s.link .link0).rx.kept.getD 2 0).toNat ∧
       crcByte (s.link .link0).rx.crc 0x54 = 0 ∧
       messageOf (.hello .link0 1 [1]) = some (.link0,
         ⟨(s.link .link0).rx.kept.getD 0 0, (s.link .link0).rx.kept.getD 1 0,
          ((s.link .link0).rx.kept.drop 3).take ((s.link .link0).rx.kept.getD 2 0).toNat⟩)) := by
  decide +kernel

/-- A LEN of 73 and of 255, a wrong last CHECK byte, a gap timer that runs, and eight messages in the queue. -/
theorem witness_DiscardsCounted :
    (let s := receiving .header [0xC3, 0xC3]
     s.receiving .link0 = true ∧ (s.link .link0).rx.state = .header ∧ (s.link .link0).rx.kept = [0xC3, 0xC3] ∧
       72 < (73 : Byte).toNat ∧ 72 < (0xC3 : Byte).toNat) ∧
    (let s := receiving .check [1, 1, 1, 1, 0]
     s.receiving .link0 = true ∧ (s.link .link0).rx.state = .check ∧
       (s.link .link0).rx.kept.length = 4 + ((s.link .link0).rx.kept.getD 2 0).toNat ∧
       crcByte (s.link .link0).rx.crc 0 ≠ 0) ∧
    (let s := receiving .header [1]
     s.receiving .link0 = true ∧ (s.link .link0).rx.gapTimer = .running) ∧
    let s := withLink fun l => { l with
      sending := some ⟨0x83, 1, [0], .general⟩, queue := List.replicate 7 ⟨0x83, 1, [0], .general⟩ }
    s.receiving .link0 = true ∧ 8 ≤ (s.link .link0).generalOccupied ∧
      messageOf (.wake .link0 5 []) = some (.link0, ⟨0x03, 5, []⟩) := by decide +kernel

/-- A receiver in HUNT, and one in LOW whose character cut a link frame, before and after the break. -/
theorem witness_LineLowFaults :
    base.receiving .link0 = true ∧
    ∀ timer ∈ [Timer.running, .stopped],
      let s := withLink fun l => { l with rx := { Receiver.lineLow with lowTimer := timer, cut := true } }
      s.resetLow = false ∧ (s.link .link0).rx.state = .low := by decide +kernel

/-! ### Witnesses: the end of an event -/

theorem witness_TransmitterAndLines :
    let m : Outgoing := ⟨0x83, 1, [0], .general⟩
    (let l : Link := { upLink with sending := some m }
     l.sending ≠ none) ∧
    (let l : Link := { upLink with state := .dormant }
     l.state = .dormant) ∧
    (let l : Link := { upLink with queue := [m, m] }
     l.sending = none ∧ l.state ≠ .dormant ∧ l.queue = m :: [m]) ∧
    (let l : Link := { upLink with notices := [.scrubPass 1, .slotReady 1], noticeMask := 0x80 }
     l.sending = none ∧ l.state = .up ∧ l.queue = [] ∧ l.notices = [.scrubPass 1] ++ .slotReady 1 :: [] ∧
       (∀ p ∈ [Notice.scrubPass 1], l.noticeMask.getLsbD p.classCode = true) ∧
       l.noticeMask.getLsbD (Notice.slotReady 1).classCode = false) ∧
    let l : Link := { upLink with notices := [.scrubPass 1], noticeMask := 0x80 }
    l.sending = none ∧ l.queue = [] ∧ ∀ n ∈ l.notices, l.noticeMask.getLsbD n.classCode = true := by decide

/-- A deferred reply being sent, its table entry ANSWERED. -/
theorem witness_MessageSentFreesPlace :
    let m : Outgoing := { kind := 0xB2, tag := 1, payload := [0], place := .deferred }
    let s := withLink fun l => { l with
      sending := some m, deferred := [{ tag := 1, kind := .check, answered := true }] }
    s.Stable ∧ (s.link .link0).sending = some m ∧ ¬(m.place = .general ∧ m.kind = 0x82) :=
  ⟨stable_of_rest (by decide +kernel), by decide +kernel⟩

theorem witness_DormancyExpiryPauses :
    let s := withLink fun l => { l with dormancyInterval := 255, dormancyTimer := .running }
    s.Stable ∧ (s.link .link0).dormancyTimer = .running := ⟨stable_of_rest (by decide +kernel), by decide +kernel⟩

theorem witness_SlotExpiryCloses :
    let s := withSlot (transfer .read)
    s.Stable ∧ s.slot (.link0, 0) = .active (transfer .read) ∧ (transfer .read).timer = .running :=
  ⟨stable_of_rest (by decide +kernel), by decide +kernel⟩

/-! ### Witnesses: intake and sessions -/

/-- A link with four deferred requests in hand, tags 1 to 4. -/
def fullTable : List DeferredEntry :=
  [⟨1, .check, false⟩, ⟨2, .check, false⟩, ⟨3, .retire, true⟩, ⟨4, .waitFree, false⟩]

/-- One message for each check of Table 7-5, in order, on a link with a full table or on a DOWN link. -/
theorem witness_IntakeRefuses :
    let s := withLink fun l => { l with deferred := fullTable }
    let d := withLink fun l => { l with state := .down }
    let takes := fun s : State => s.receiving .link0 = true ∧ (s.link .link0).state ≠ .dormant ∧
      (s.link .link0).generalOccupied < 8 ∧ (s.link .link0).segment = none
    s.Stable ∧ d.Stable ∧ takes s ∧ takes d ∧
    (messageOf (.badKindMessage .link0 0x7F 0 []) = some (.link0, ⟨0x7F, 0, []⟩) ∧
      refusalCode? (s.link .link0) ⟨0x7F, 0, []⟩ = some 0x10) ∧
    (messageOf (.seg .link0 0 [0, 0]) = some (.link0, ⟨0x21, 0, [0, 0]⟩) ∧
      refusalCode? (s.link .link0) ⟨0x21, 0, [0, 0]⟩ = some 0x11) ∧
    (messageOf (.seg .link0 0 (bytes 66)) = some (.link0, ⟨0x21, 0, bytes 66⟩) ∧
      refusalCode? (s.link .link0) ⟨0x21, 0, bytes 66⟩ = some 0x12) ∧
    (messageOf (.check .link0 3 [0, 0]) = some (.link0, ⟨0x32, 3, [0, 0]⟩) ∧
      refusalCode? (s.link .link0) ⟨0x32, 3, [0, 0]⟩ = some 0x13) ∧
    (messageOf (.check .link0 5 [0, 0]) = some (.link0, ⟨0x32, 5, [0, 0]⟩) ∧
      refusalCode? (s.link .link0) ⟨0x32, 5, [0, 0]⟩ = some 0x14) ∧
    (messageOf (.wake .link0 5 []) = some (.link0, ⟨0x03, 5, []⟩) ∧
      refusalCode? (d.link .link0) ⟨0x03, 5, []⟩ = some 0x15) :=
  ⟨stable_of_rest (by decide +kernel), stable_of_rest (by decide +kernel), by decide +kernel⟩

theorem witness_DormantLinkWakes :
    let s := withLink fun l => { l with state := .dormant }
    messageOf (.wake .link0 5 []) = some (.link0, ⟨0x03, 5, []⟩) ∧ s.receiving .link0 = true ∧
      (s.link .link0).state = .dormant ∧ (s.link .link0).generalOccupied < 8 := by decide +kernel

/-- A SEG of one byte from slot 0 waits for the store. -/
def waitingSegment : State :=
  { (withSlot { transfer .write with timer := .stopped }).onLink .link0 fun l =>
      { l with segment := some ⟨9, 0, false, [0x11], 1⟩ } with
    arbiter := { base.arbiter with waiting := [.dataPath .link0] } }

theorem witness_MessageAwaitsSegment :
    waitingSegment.Stable ∧ messageOf (.wake .link0 5 []) = some (.link0, ⟨0x03, 5, []⟩) ∧
      waitingSegment.receiving .link0 = true ∧ (waitingSegment.link .link0).state ≠ .dormant ∧
      (waitingSegment.link .link0).generalOccupied < 8 ∧ (waitingSegment.link .link0).segment ≠ none :=
  ⟨stable_of_rest (by decide +kernel), by decide +kernel⟩

theorem witness_AwaitingMessagesTaken :
    (∀ i : LinkId, (base.endEvent.link i).canTake = false) ∧
    let s := withLink fun l => { l with awaiting := [⟨0x03, 5, []⟩] }
    (s.endEvent.link .link0).segment = none ∧ (s.endEvent.link .link0).awaiting = ⟨0x03, 5, []⟩ :: [] ∧
      (s.endEvent.link LinkId.link0.other).canTake = false :=
  ⟨fun i => by cases i <;> decide +kernel, by decide +kernel⟩

theorem witness_SessionRequests :
    (let d := withLink fun l => { l with state := .down }
     d.Stable ∧ d.receiving .link0 = true ∧ (d.link .link0).state ≠ .dormant ∧ (d.link .link0).generalOccupied < 8 ∧
       (d.link .link0).segment = none ∧ (255 : Byte) ≠ 0 ∧ (∀ e ∈ (d.link .link0).deferred, e.tag ≠ 255) ∧
       (d.link .link0).state = .down) ∧
    base.Ready .link0 5 :=
  ⟨⟨stable_of_rest (by decide +kernel), by decide +kernel⟩, base_ready⟩

/-! ### Witnesses: settings and status -/

/-- Values at the ends of the ranges, and just outside them. -/
theorem witness_SettingsSet :
    base.Ready .link0 5 ∧ (0xFE : Byte).getLsbD 0 = false ∧ (3 : Byte).toNat * 256 + (0xE8 : Byte).toNat = 1000 ∧
      (0 : Byte).toNat * 256 + (15 : Byte).toNat = 15 ∧ (15 : Byte).toNat * 256 + (255 : Byte).toNat = 4095 :=
  ⟨base_ready, by decide⟩

theorem witness_ConfigQueriesAndRefusals :
    base.Ready .link0 5 ∧
    (messageOf (.configQuery .link0 5 7 [0, 0]) = some (.link0, ⟨0x04, 5, [0x87, 0, 0]⟩) ∧
      base.inForce .link0 ((0x87 : Byte).toNat % 128) = none) ∧
    (messageOf (.configQuery .link0 5 4 [0, 0]) = some (.link0, ⟨0x04, 5, [0x84, 0, 0]⟩) ∧
      base.inForce .link0 ((0x84 : Byte).toNat % 128) = some 10 ∧ 128 ≤ (0x84 : Byte).toNat) ∧
    (messageOf (.configScrubInterval .link0 5 [3, 0xE9]) = some (.link0, ⟨0x04, 5, [4, 3, 0xE9]⟩) ∧
      base.inForce .link0 ((4 : Byte).toNat % 128) = some 10 ∧
      ¬settingRange (4 : Byte).toNat ((3 : Byte).toNat * 256 + (0xE9 : Byte).toNat)) :=
  ⟨base_ready, by decide +kernel, by decide +kernel, rfl, by decide +kernel, by simp [settingRange]⟩

/-- The set of the classes of two pending notices, with the clear flag at 1 and at 2. -/
theorem witness_StatusReports :
    base.Ready .link0 5 ∧
    (let s := withLink fun l => { l with sending := some ⟨0x83, 1, [0], .general⟩, notices := [.scrubPass 1, .slotReady 1] }
     s.Ready .link0 5 ∧
       ∀ c : Fin 8, (0x84 : Byte).getLsbD c.val = (s.link .link0).notices.any fun n => n.classCode = c.val) ∧
    (1 : Byte).toNat < 2 ∧ 2 ≤ (2 : Byte).toNat :=
  ⟨base_ready, ⟨ready_of_canAnswer (by decide +kernel), by decide +kernel⟩, by decide⟩

/-! ### Witnesses: spaces -/

theorem base_space0 : base.space 0 = some spaceA := rfl

theorem base_space1 : base.space 1 = some spaceB := rfl

/-- Link 0 owns space 1, holds WRITE on space 2 and nothing on space 3. -/
theorem base_holds : base.Holds .link0 1 3 0 spaceA ∧ base.Holds .link0 1 2 0 spaceA ∧ base.Holds .link0 1 1 0 spaceA ∧
    base.Holds .link0 2 2 1 spaceB ∧ base.Holds .link0 2 1 1 spaceB :=
  ⟨⟨rfl, base_space0, by decide⟩, ⟨rfl, base_space0, by decide⟩, ⟨rfl, base_space0, by decide⟩,
   ⟨rfl, base_space1, by decide⟩, rfl, base_space1, by decide⟩

/-- Sizes 0, 257 and 256, with all sixteen spaces LIVE and with space 4 the lowest ABSENT one. -/
theorem witness_SpaceCreateTakesLowest :
    base.Ready .link0 5 ∧ 256 < (1 : Byte).toNat * 256 + (1 : Byte).toNat ∧
    (let s : State := { base with spaces := Vector.replicate 16 (some spaceC) }
     s.Ready .link0 5 ∧ ∀ sp, s.space sp ≠ none) ∧
    (1 : Byte).toNat * 256 + (0 : Byte).toNat = 256 ∧ base.space 3 = none ∧
      ∀ tp : SpaceId, tp < 3 → base.space tp ≠ none :=
  ⟨base_ready, by decide, ⟨ready_of_canAnswer (by decide +kernel), by decide +kernel⟩, by decide +kernel⟩

theorem witness_SpaceGrantAndInfo :
    base.Ready .link0 5 ∧ base.Holds .link0 1 3 0 spaceA ∧ base.Holds .link0 2 1 1 spaceB ∧ 2 < (3 : Byte).toNat :=
  ⟨base_ready, base_holds.1, base_holds.2.2.2.2, by decide⟩

/-- A slot in DATA and a HALTED one that count space 1, one that does not, and one with a SEG in processing. -/
theorem witness_SpaceDestroyEndsSpace :
    base.Ready .link0 5 ∧ base.Holds .link0 1 3 0 spaceA ∧ base.slot (.link0, 0) = .idle none ∧
    (withSlot { transfer .read with phase := .halted .dataLost }).slot (.link0, 0) =
      .active { transfer .read with phase := .halted .dataLost } ∧
    (withSlot { transfer .read with counted := false }).slot (.link0, 0) =
      .active { transfer .read with counted := false } ∧
    (withSlot (transfer .read)).slot (.link0, 0) = .active (transfer .read) ∧ (transfer .read).counted = true ∧
    (transfer .read).space = 0 ∧ (withSlot (transfer .read)).link0.segment = none ∧
    (waitingSegment.link .link0).segment = some ⟨9, 0, false, [0x11], 1⟩ ∧
    waitingSegment.slot (.link0, 0) = .active { transfer .write with timer := .stopped } :=
  ⟨base_ready, base_holds.1, by decide +kernel⟩

/-- Ids 0 and 17, an ABSENT space, a right that is lacking, a count of 0 and of 257, and a range that ends one page late. -/
theorem witness_SpaceRequestsRefused :
    base.Ready .link0 5 ∧ base.spaceRefusal? .link0 0 3 = some 0x17 ∧ base.spaceRefusal? .link0 17 1 = some 0x17 ∧
    base.spaceRefusal? .link0 16 2 = some 0x21 ∧ base.spaceRefusal? .link0 2 3 = some 0x22 ∧
    base.spaceRefusal? .link0 3 1 = some 0x22 ∧ base.Holds .link0 1 2 0 spaceA ∧ nat16 0 0 = 0 ∧ 256 < nat16 1 1 ∧
    spaceA.size < nat16 0 4 + nat16 0 5 ∧ base.Holds .link0 1 1 0 spaceA ∧ 1 < (2 : Byte).toNat :=
  ⟨base_ready, by decide +kernel, by decide +kernel, by decide +kernel, by decide +kernel, by decide +kernel,
   base_holds.2.1, by decide, by decide, by decide, base_holds.2.2.1, by decide⟩

theorem rangePages_four : rangePages 1 0 4 = [(1, 0), (1, 1), (1, 2), (1, 3)] := by decide +kernel

theorem rangePages_two : rangePages 0 6 2 = [(0, 6), (0, 7)] := by decide +kernel

theorem rangePages_three : rangePages 0 0 3 = [(0, 0), (0, 1), (0, 2)] := by decide +kernel

theorem sources_present : ∀ p ∈ rangePages 0 0 3, base.entry p ≠ none := by
  rw [rangePages_three]
  exact List.forall_iff_forall_mem.1 (show _ ∧ _ ∧ _ from ⟨by decide +kernel, by decide +kernel, by decide +kernel⟩)

theorem dests_absent : ∀ p ∈ rangePages 1 0 4, base.entry p = none := by
  rw [rangePages_four]
  exact List.forall_iff_forall_mem.1 (show _ ∧ _ ∧ _ ∧ _ from ⟨rfl, rfl, rfl, rfl⟩)

/-- The first four pages of space 2, all absent, with three free frames; and the last two of space 1, one absent. -/
theorem witness_MapAllOrNothing :
    base.Ready .link0 5 ∧ base.freeQueue.Nodup ∧
    (base.Holds .link0 2 2 1 spaceB ∧ 1 ≤ nat16 0 4 ∧ nat16 0 0 + nat16 0 4 ≤ spaceB.size ∧
      base.freeQueue.length < ((rangePages 1 0 4).filter fun p => (base.entry p).isNone).length) ∧
    (base.Holds .link0 1 2 0 spaceA ∧ 1 ≤ nat16 0 2 ∧ nat16 0 6 + nat16 0 2 ≤ spaceA.size ∧
      ((rangePages 0 6 2).filter fun p => (base.entry p).isNone) = [(0, 7)] ∧ base.freeQueue[0]? = some 5 ∧
      (1 : Nat) ≤ base.freeQueue.length) :=
  ⟨base_ready, by decide, ⟨base_holds.2.2.2.1, by rw [rangePages_four]; decide +kernel⟩, base_holds.2.1, by
    rw [rangePages_two]; decide +kernel⟩

/-- Pages on a shared, a moving and a plain frame. -/
theorem witness_UnmapDetaches :
    base.Ready .link0 5 ∧ base.Holds .link0 1 2 0 spaceA ∧ 1 ≤ nat16 0 8 ∧ nat16 0 8 ≤ 256 ∧
      nat16 0 0 + nat16 0 8 ≤ spaceA.size ∧
    (base.entry (0, 1) = some ⟨1, false, true, false, false⟩ ∧ (base.frame 1).state.refs.erase (0, 1) ≠ []) ∧
    (base.entry (0, 3) = some ⟨2, false, false, false, false⟩ ∧ (base.frame 2).state.refs.erase (0, 3) = [] ∧
      (base.frame 2).moving = true) ∧
    (base.entry (0, 0) = some ⟨0, false, false, false, false⟩ ∧ (base.frame 0).state.refs.erase (0, 0) = [] ∧
      (base.frame 0).moving = false) :=
  ⟨base_ready, base_holds.2.1, by decide +kernel⟩

theorem witness_ProtectAndUsage :
    base.Ready .link0 5 ∧ 1 ≤ nat16 1 0 ∧ nat16 1 0 ≤ 256 ∧ nat16 0 0 + nat16 1 0 ≤ spaceB.size ∧
      base.Holds .link0 2 2 1 spaceB ∧ base.Holds .link0 2 1 1 spaceB :=
  ⟨base_ready, by decide, by decide, by decide, base_holds.2.2.2.1, base_holds.2.2.2.2⟩

/-- The pages of the CLONE that the witnesses name, from space 1 to space 2. -/
theorem witness_CloneShares :
    base.Ready .link0 5 ∧ (0 : Byte) = 0 ∧ 16 < (17 : Byte).toNat ∧
    ((1 : Byte).toNat = (0 : SpaceId).val + 1 ∧ (16 : Byte).toNat = (15 : SpaceId).val + 1 ∧ base.space 15 = none) ∧
    (base.space 0 = some spaceA ∧ base.space 1 = some spaceB ∧ base.space 2 = some spaceC) ∧ spaceC.rank .link0 < 1 ∧
    (1 ≤ spaceA.rank .link0 ∧ 2 ≤ spaceB.rank .link0) ∧ (spaceA.size ≤ 256 ∧ spaceB.size ≤ 256) ∧
    (spaceA.size < nat16 0 7 + nat16 0 2 ∧
      (∃ p ∈ rangePages 0 6 2, base.entry p = none) ∧
      ((∀ p ∈ rangePages 0 0 3, base.entry p ≠ none) ∧ ∃ p ∈ rangePages 0 6 2, base.entry p ≠ none) ∧
      ((∀ p ∈ rangePages 0 0 3, base.entry p ≠ none) ∧ ∀ p ∈ rangePages 1 0 4, base.entry p = none)) ∧
    ((rangePages 0 0 3).countP fun p => (base.entry p).any fun en => en.frame = 1) = 2 ∧
    (base.frame 1).state.refs.length + 2 ≤ 64 ∧
    (let s := base.setFrame 1 (record (.held (List.replicate 63 (0, 1))))
     64 < (s.frame 1).state.refs.length + 2) :=
  ⟨base_ready, rfl, by decide, ⟨by decide, by decide, rfl⟩, ⟨base_space0, base_space1, rfl⟩, by decide, by decide, by decide,
   ⟨by decide, by rw [rangePages_two]; decide +kernel,
    ⟨sources_present, by rw [rangePages_two]; decide +kernel⟩, sources_present, dests_absent⟩, by
    rw [rangePages_three]; decide +kernel, by
    rw [show (base.frame 1).state.refs = [(0, 1), (0, 2)] from rfl]; decide, by
    intro s; rw [frame_setFrame_same]; decide⟩

/-! ### Witnesses: transfers -/

/-- A slot number out of range, a slot in use, and an OPEN of the last 512 bytes of space 1; then each phase a CLOSE finds. -/
theorem witness_OpenAndClose :
    base.Ready .link0 5 ∧
    (base.openRefusal? .link0 4 0 1 0 1 = some 0x17 ∧ base.openRefusal? .link0 0 0 1 (nat24 0 0x0E 0) 513 = some 0x17 ∧
      (withSlot (transfer .read)).openRefusal? .link0 0 0 1 0 1 = some 0x40) ∧
    ((3 : Byte).toNat = (3 : SlotId).val ∧ (1 : Byte).toNat < 2 ∧ base.slot (.link0, 3) = .idle none ∧
      base.Holds .link0 1 2 0 spaceA ∧ nat24 0 0x0E 0 ≤ 131071 ∧ 1 ≤ nat24 0 2 0 ∧ nat24 0 2 0 ≤ 131072 ∧
      nat24 0 0x0E 0 + nat24 0 2 0 ≤ spaceA.size * 512) ∧
    4 ≤ (4 : Byte).toNat ∧
    (∀ phase ∈ [Phase.data, .final, .halted .overrun],
      (withSlot { transfer .write with phase := phase }).slot (.link0, 0) =
        .active { transfer .write with phase := phase }) ∧
    (withSlot (transfer .write)).Ready .link0 5 :=
  ⟨base_ready, by decide +kernel, ⟨by decide, by decide, by decide +kernel, base_holds.2.1, by decide⟩, by decide,
   by decide +kernel, ready_of_canAnswer (by decide +kernel)⟩

theorem witness_RecordsReported :
    base.Ready .link0 5 ∧ 4 ≤ (255 : Byte).toNat ∧ base.slot (.link0, 3) = .idle none ∧
    (base.setSlot (.link0, 0) (.idle (some ⟨.expired, 64⟩))).slot (.link0, 0) = .idle (some ⟨.expired, 64⟩) ∧
    ((withSlot (transfer .write)).slot (.link0, 0) = .active (transfer .write) ∧
      (withSlot (transfer .write)).Ready .link0 5) ∧
    4096 ≤ nat16 0x10 0 ∧ (4095 : FrameId).val = nat16 0x0F 0xFF :=
  ⟨base_ready, by decide, by decide +kernel, by decide +kernel,
   ⟨by decide +kernel, ready_of_canAnswer (by decide +kernel)⟩, by decide, by decide⟩

/-- Byte counts 0, 1, 64 and 65, toggles 1 and 2, and the phases of the slot. -/
theorem witness_SegAnsweredAtOnce :
    (∀ t ∈ [transfer .read, transfer .write, { transfer .write with phase := .halted .sequence },
        { transfer .read with phase := .final, position := 600, toggle := true, last := some ⟨false, 64, 600, bytes 64⟩ },
        { transfer .write with position := 560 }],
      canAnswer (withSlot t) .link0 5 = true ∧ (withSlot t).slot (.link0, 0) = .active t) ∧
    (withSlot (transfer .read)).Ready .link0 5 ∧ base.slot (.link0, 3) = .idle none ∧ 4 ≤ (4 : Byte).toNat ∧
    ((transfer .read).direction = .read ∧ ¬(2 : Byte).toNat < 2 ∧ 64 < (65 : Byte).toNat) ∧
    (decide ((1 : Byte) = 1) ≠ (transfer .write).toggle ∧ (transfer .write).last = none) ∧
    (transfer .write).length - 560 < (bytes 41).length :=
  ⟨by decide +kernel, ready_of_canAnswer (by decide +kernel), by decide +kernel, by decide, by decide, by decide,
   by decide⟩

/-- The store busy, and the store idle with no clear to make. -/
theorem witness_SegPresentsAccess :
    (∀ s ∈ [withSlot (transfer .write), withSlot (transfer .read),
        { withSlot (transfer .write) with
          clearQueue := [], arbiter := { current := none, waiting := [], lastServed := .scrubber } }],
      canAnswer s .link0 5 = true ∧ .dataPath .link0 ∉ s.arbiter.waiting) ∧
    (withSlot (transfer .write)).Ready .link0 5 ∧ (withSlot (transfer .write)).arbiter.current.isSome = true ∧
    (withSlot (transfer .write)).slot (.link0, 0) = .active (transfer .write) ∧ (transfer .write).phase = .data ∧
    decide ((0 : Byte) = 1) = (transfer .write).toggle ∧ (bytes 64).length ≤ 64 ∧
    (bytes 64).length ≤ (transfer .write).length - (transfer .write).position ∧ (64 : Byte).toNat ≤ 64 :=
  ⟨by decide +kernel, ready_of_canAnswer (by decide +kernel), by decide +kernel⟩

/-- A SEG of slot 0 whose access is granted, and the first frame's word 62 with no, one or two bits in error. -/
def granted (t : Transfer) (count : Nat) : State :=
  (withSlot t).onLink .link0 fun l => { l with segment := some ⟨9, 0, t.toggle, bytes count, count⟩ }

/-- Both directions over pages 0 and 1 of space 1 with every word CLEAN, and with an UNCORRECTABLE word; the right lost; and a
page that halts. -/
theorem witness_GrantMovesSegment :
    (∀ d ∈ [Direction.read, .write],
      ((granted (transfer d) 8).link .link0).segment = some ⟨9, 0, false, bytes 8, 8⟩ ∧
      (granted (transfer d) 8).slot (.link0, 0) = .active (transfer d) ∧ (transfer d).phase = .data ∧
      (granted (transfer d) 8).space 0 = some spaceA ∧ (if d = .read then 1 else 2) ≤ spaceA.rank .link0 ∧
      (granted (transfer d) 8).translate d 0 (pagesTouched 500 8) = .moveOk [⟨0, 500, 8⟩] [(0, 0)] ∧
      (∀ e ∈ base.memory.errorsIn (Part.words ⟨0, 500, 8⟩), e.kind ≠ .uncorrectable) ∧
      ∃ e ∈ ((base.memory.strike 0 62 3).strike 0 62 4).errorsIn (Part.mergeWords ⟨0, 500, 8⟩), e.kind = .uncorrectable) ∧
    spaceC.rank .link0 < 1 ∧
    (granted (transfer .read) 8).translate .read 0 (pagesTouched 2048 8) = .stop (0, 4) (.halt .dataLost) := by
  refine ⟨?_, by decide, by decide +kernel⟩
  intro d hd
  have : d = .read ∨ d = .write := by simpa using hd
  rcases this with rfl | rfl
  · exact ⟨rfl, by decide +kernel, rfl, rfl, by decide, by decide +kernel, by decide +kernel, by decide +kernel⟩
  · exact ⟨rfl, by decide +kernel, rfl, rfl, by decide, by decide +kernel, by decide +kernel, by decide +kernel⟩

/-- A write to a shared page, to a copy-pending page and to a page of a moving frame, with no job, with eight, and with no free
frame. -/
theorem witness_GrantWaitsForCopy :
    let s := granted (transfer .write) 13
    (s.link .link0).segment = some ⟨9, 0, false, bytes 13, 13⟩ ∧ s.slot (.link0, 0) = .active (transfer .write) ∧
    (transfer .write).phase = .data ∧ s.space 0 = some spaceA ∧ 2 ≤ spaceA.rank .link0 ∧
    s.translate .write 0 (pagesTouched 500 13) = .stop (0, 1) (.needsCopy ⟨1, false, true, false, false⟩) ∧
    s.translate .write 0 (pagesTouched 1536 1) = .stop (0, 3) (.waitMove 2) ∧
    s.translate .write 0 (pagesTouched 2560 1) = .stop (0, 5) .waitCopy ∧
    (s.jobs.length < 8 ∧ s.freeQueue = 5 :: [6, 7]) ∧
    let full : State := { s with jobs := eightJobs }
    (full.link .link0).segment = some ⟨9, 0, false, bytes 13, 13⟩ ∧ full.slot (.link0, 0) = .active (transfer .write) ∧
    full.space 0 = some spaceA ∧ 8 ≤ full.jobs.length ∧
    full.translate .write 0 (pagesTouched 500 13) = .stop (0, 1) (.needsCopy ⟨1, false, true, false, false⟩) :=
  ⟨rfl, by decide +kernel, rfl, rfl, by decide, by decide +kernel, by decide +kernel, by decide +kernel, by decide +kernel,
   rfl, by decide +kernel, rfl, le_refl 8, by decide +kernel⟩

theorem witness_TranslationDecides :
    base.entry (0, 7) = none ∧
    (base.entry (0, 0) = some ⟨0, false, false, false, false⟩ ∧ (base.frame 0).poisoned = false) ∧
    (base.entry (0, 1) = some ⟨1, false, true, false, false⟩ ∧ (base.frame 1).state.refs = [(0, 1), (0, 2)]) ∧
    (base.entry (0, 3) = some ⟨2, false, false, false, false⟩ ∧ (base.frame 2).moving = true) ∧
    (base.entry (0, 4) = some ⟨3, false, false, false, false⟩ ∧ (base.frame 3).poisoned = true) ∧
    (base.entry (0, 5) = some ⟨4, false, false, false, true⟩ ∧ (base.frame 4).moving = false) ∧
    base.entry (0, 6) = some ⟨10, true, false, false, false⟩ ∧
    ((3 : PageId).val = 2047 / 512 ∧ base.translatePage .read (0, 3) = .moveOk 2 ∧ 512 < 2047 % 512 + 2 ∧
      base.translatePage .read (0, 4) = .halt .dataLost) ∧
    ((0 : PageId).val = 448 / 512 ∧ base.translatePage .read (0, 0) = .moveOk 0 ∧ 448 % 512 + 64 ≤ 512) ∧
    ((0 : PageId).val = 511 / 512 ∧ 512 < 511 % 512 + 2 ∧ base.translatePage .read (0, 1) = .moveOk 1) :=
  ⟨rfl, ⟨rfl, rfl⟩, ⟨rfl, rfl⟩, ⟨rfl, rfl⟩, ⟨rfl, rfl⟩, ⟨rfl, rfl⟩, rfl,
   ⟨by decide, by decide +kernel, by decide, by decide +kernel⟩,
   ⟨by decide, by decide +kernel, by decide⟩, by decide, by decide, by decide +kernel⟩

/-! ### Witnesses: frames and the Scrubber -/

/-- A frame in each state, the discretionary count at 256 and at 0, a full copy queue, and no free frame. -/
theorem witness_RetireByState :
    base.Ready .link0 5 ∧ (base.link .link0).deferred.length < 4 ∧ 4096 ≤ nat16 0x10 0 ∧
    ((9 : FrameId).val = nat16 0 9 ∧ (base.frame 9).state = .retired) ∧
    (let s : State := { base with scrub := { base.scrub with discretionary := 256 } }
     canAnswer s .link0 5 = true ∧ (s.frame 0).state ≠ .retired ∧ 256 ≤ s.scrub.discretionary) ∧
    ((7 : FrameId).val = nat16 0 7 ∧ (base.frame 7).state = .free) ∧
    ((11 : FrameId).val = nat16 0 11 ∧ (base.frame 11).state = .clearing) ∧
    ((8 : FrameId).val = nat16 0 8 ∧ (base.frame 8).state = .target) ∧
    ((base.frame 3).state = .held [(0, 4)] ∧ (base.frame 3).poisoned = true) ∧
    ((base.frame 0).state = .held [(0, 0)] ∧ (base.frame 0).poisoned = false ∧ (base.frame 0).moving = false) ∧
    (canAnswer (withJobs eightJobs) .link0 5 = true ∧ 8 ≤ (withJobs eightJobs).jobs.length) ∧
    (let s : State := { base with freeQueue := [] }
     canAnswer s .link0 5 = true ∧ s.freeQueue = []) ∧
    base.jobs.length < 8 ∧ base.freeQueue = 5 :: [6, 7] ∧ (5 : FrameId) ≠ 0 :=
  ⟨base_ready, by decide +kernel⟩

theorem witness_CheckJoinsQueue :
    base.Ready .link0 5 ∧ (base.link .link0).deferred.length < 4 ∧ 4096 ≤ nat16 0xFF 0xFF ∧
    ((9 : FrameId).val = nat16 0 9 ∧ (base.frame 9).state = .retired) ∧
    ((base.frame 0).state.isHeld = true ∧ base.scrub.engine = .idle) ∧
    (let s : State := { base with
      scrub := { base.scrub with engine := .busy 0 .walk }, arbiter := { base.arbiter with waiting := [.scrubber] } }
     canAnswer s .link0 5 = true ∧ (s.frame 0).state.isHeld = true ∧ s.scrub.engine ≠ .idle) :=
  ⟨base_ready, by decide +kernel⟩

/-- Counts of 4096 with a retired frame, of 4095 and of 3, a timeout of 60000, and a waiter. -/
theorem witness_WaitFreeAnswers :
    base.Ready .link0 5 ∧ (base.link .link0).deferred.length < 4 ∧
    4096 < nat16 0x10 0 + base.scrub.retired.length ∧
    (¬(nat16 0 3 = 0 ∨ 4096 < nat16 0 3 ∨ nat16 0xEA 0x60 = 0 ∨ 60000 < nat16 0xEA 0x60 ∨
      4096 < nat16 0 3 + base.scrub.retired.length) ∧ nat16 0 3 ≤ base.freeQueue.length) ∧
    (¬(nat16 0x0F 0xFF = 0 ∨ 4096 < nat16 0x0F 0xFF ∨ nat16 0 1 = 0 ∨ 60000 < nat16 0 1 ∨
      4096 < nat16 0x0F 0xFF + base.scrub.retired.length) ∧ base.freeQueue.length < nat16 0x0F 0xFF) ∧
    let w : Waiter := ⟨.link0, 9, 100, 500⟩
    let s : State := { base with waiters := [w] }
    s.Stable ∧ w ∈ s.waiters :=
  ⟨base_ready, by decide +kernel, by decide +kernel, by decide +kernel, by decide +kernel,
   stable_of_rest (by decide +kernel), by decide⟩

/-- The cursor on a HELD frame and on the last one, and the engine busy; then the head CHECK entry on a HELD and on a CLEARING
frame. -/
theorem witness_ScrubberWorks :
    (base.Stable ∧ base.scrub.walkTimer = .running ∧ base.scrub.engine = .idle) ∧
    (let s : State := { base with scrub := { base.scrub with cursor := Fin.last 4095 } }
     s.Stable ∧ s.scrub.walkTimer = .running ∧ s.scrub.engine = .idle) ∧
    (let s : State := { base with
      scrub := { base.scrub with engine := .busy 0 .orphan }, arbiter := { base.arbiter with waiting := [.scrubber] } }
     s.Stable ∧ s.scrub.walkTimer = .running ∧ s.scrub.engine ≠ .idle) ∧
    (let s : State := { base with scrub := { base.scrub with checkQueue := [⟨.link0, 1, 0⟩] } }
     s.scrub.engine = .idle ∧ s.scrub.checkQueue = ⟨.link0, 1, 0⟩ :: [] ∧ (s.frame 0).state.isHeld = true) ∧
    let s : State := { base with scrub := { base.scrub with checkQueue := [⟨.link0, 1, 11⟩] } }
    s.scrub.engine = .idle ∧ s.scrub.checkQueue = ⟨.link0, 1, 11⟩ :: [] ∧
      ¬((s.frame 11).state = .free ∨ (s.frame 11).state.isHeld = true) :=
  ⟨⟨base_ready.stable, by decide +kernel⟩, ⟨stable_of_rest (by decide +kernel), by decide +kernel⟩,
   ⟨stable_of_rest (by decide +kernel), by decide +kernel⟩, by decide +kernel⟩

/-! ### Witnesses: completions -/

/-- A clear in progress of a plain frame, of a poisoned one, and of a retire-pending one at the limit. -/
theorem witness_ClearCompletes :
    (base.arbiter.current = some (.clear 4095)) ∧
    (let s : State := { base with arbiter := { base.arbiter with current := some (.clear 3) } }
     s.arbiter.current = some (.clear 3) ∧ (s.frame 3).poisoned = true) ∧
    let s : State := { base.setFrame 11 { record .clearing with retirePending := true } with
      arbiter := { base.arbiter with current := some (.clear 11) }
      scrub := { base.scrub with discretionary := 256 } }
    s.arbiter.current = some (.clear 11) ∧
      ¬((s.frame 11).poisoned = true ∨ ((s.frame 11).retirePending = true ∧ s.scrub.discretionary < 256)) := by
  decide +kernel

theorem witness_FreeFrameResolved :
    (base.frame 5).state = .free ∧ (base.frame 5).poisoned = false ∧ (base.frame 5).retirePending = false ∧
    (let s := base.setFrame 5 { record .free with poisoned := true }
     (s.frame 5).state = .free ∧ (s.frame 5).poisoned = true) ∧
    let s := base.setFrame 5 { record .free with retirePending := true }
    (s.frame 5).state = .free ∧ (s.frame 5).retirePending = true ∧ s.scrub.discretionary < 256 := by decide +kernel

/-- A part whose copy of frame 1 to frame 8 is ending, for a job of the kind given. -/
def copying (kind : JobKind) (source : FrameId) (errors : List ErrorEvent) : State :=
  { withJobs [{ kind := kind, source := source, target := 8, waiters := [(.link0, 0)], phase := .copying }] with
    arbiter := { base.arbiter with current := some (.copy source 8 errors) } }

/-- A slot in DATA, with and without a SEG in processing; then a PRIVATE copy of a shared frame and a MOVE of a moving one,
each CLEAN and UNCORRECTABLE, with the target sound and poisoned. -/
theorem witness_CopyCompletes :
    let bad : List ErrorEvent := [⟨1, 63, .uncorrectable⟩]
    ((withSlot (transfer .write)).slot (.link0, 0) = .active (transfer .write) ∧
      (withSlot (transfer .write)).link0.segment = none) ∧
    (waitingSegment.slot (.link0, 0) = .active { transfer .write with timer := .stopped } ∧
      waitingSegment.link0.segment = some ⟨9, 0, false, [0x11], 1⟩) ∧
    (∀ errors ∈ [[], bad], (copying (.privateCopy (0, 1)) 1 errors).arbiter.current = some (.copy 1 8 errors)) ∧
    (copying (.privateCopy (0, 1)) 1 []).jobs = [⟨.privateCopy (0, 1), 1, 8, [(.link0, 0)], .copying⟩] ∧
    (∃ e ∈ bad, e.kind = .uncorrectable) ∧
    (let x := State.commonEffects
      { copying (.privateCopy (0, 1)) 1 [] with jobs := [], arbiter := { base.arbiter with current := none } } .copy []
     (x.frame 8).poisoned = false ∧ x.entry (0, 1) = some ⟨1, false, true, false, false⟩ ∧
       1 < (x.frame 1).state.refs.length ∧ (8 : FrameId) ≠ 1) ∧
    (let s := (copying (.privateCopy (0, 0)) 0 []).setFrame 8 { record .target with poisoned := true }
     (s.frame 8).poisoned = true ∧ (s.frame 0).state.refs.length ≤ 1) ∧
    (let s := copying (.move (some (.link0, 9))) 2 []
     s.arbiter.current = some (.copy 2 8 []) ∧
       s.jobs = [⟨.move (some (.link0, 9)), 2, 8, [(.link0, 0)], .copying⟩] ∧ (s.frame 8).poisoned = false ∧
       s.scrub.discretionary < 256 ∧ (8 : FrameId) ≠ 2) := by
  intro bad
  refine ⟨by decide +kernel, by decide +kernel, ?_, rfl, by decide, by decide +kernel, by decide +kernel,
    by decide +kernel⟩
  exact List.forall_iff_forall_mem.1 (show _ ∧ _ from ⟨rfl, rfl⟩)

/-- `mapped` with frame 0 as the source of a MOVE to frame 8. -/
theorem witness_MoveCarriesEntries :
    (mapped.frame 0).state = .held [(0, 0)] ∧ [((0, 0) : BackRef)].Nodup ∧ (0 : FrameId) ≠ 8 ∧
      ∀ p, p ∈ [((0, 0) : BackRef)] ↔ ∃ e, mapped.entry p = some e ∧ e.frame = 0 := by
  refine ⟨by rw [mapped_frame]; rfl, by decide, by decide, fun p => ?_⟩
  rw [mapped_entry]
  by_cases h : p = (0, 0) <;> simp [h]

/-- A part whose check of a frame is ending. -/
def checking (f : FrameId) (work : CheckWork) : State :=
  { base with
    scrub := { base.scrub with engine := .busy f work, walkTimer := .stopped }
    arbiter := { base.arbiter with current := some (.check f [⟨f, 22, .corrected 5⟩]) } }

/-- A check of a frame in each state, and of a HELD frame that is retire-pending with and without a place for its MOVE. -/
theorem witness_CheckCompletes :
    ((checking 5 .walk).arbiter.current = some (.check 5 [⟨5, 22, .corrected 5⟩]) ∧
      (checking 5 .walk).scrub.engine = .busy 5 .walk) ∧
    ((checking 5 .walk).frame 5).state = .free ∧ ((checking 11 .walk).frame 11).state = .clearing ∧
    ((checking 9 .walk).frame 9).state = .retired ∧ ((checking 1 (.request .link0 9)).frame 1).state.isHeld = true ∧
    (let s := (checking 0 .orphan).setFrame 0 { record (.held [(0, 0)]) with retirePending := true }
     (s.frame 0).state.isHeld = true ∧ (s.frame 0).poisoned = false ∧ (s.frame 0).moving = false ∧
       (s.frame 0).retirePending = true ∧ s.scrub.discretionary < 256 ∧ s.jobs.length < 8 ∧
       s.freeQueue = 5 :: [6, 7] ∧ (5 : FrameId) ≠ 0) ∧
    (8 ≤ (withJobs eightJobs).jobs.length) ∧
    256 ≤ ({ base with scrub := { base.scrub with discretionary := 256 } } : State).scrub.discretionary := by
  decide +kernel

/-! ### Witnesses: errors, notices and the store -/

/-- The set of the spaces of a list of two pages of space 1, and a poisoned frame. -/
theorem witness_ErrorEffects :
    (∀ sp : SpaceId, (1 : BitVec 16).getLsbD sp.val = true ↔ ∃ p ∈ [((0, 1) : BackRef), (0, 2)], p.1 = sp) ∧
    (base.frame 1).state.refs = [(0, 1), (0, 2)] ∧ (base.frame 1).poisoned = false ∧ (base.frame 3).poisoned = true :=
  ⟨by decide, rfl, rfl, rfl⟩

theorem witness_RaisesMerge :
    (State.reset.link .link0).state = .down ∧ (base.link .link0).state ≠ .down ∧
    (∀ p ∈ (base.link .link0).notices, p.classCode ≠ (Notice.slotReady 1).classCode) ∧
    (let s := withLink fun l => { l with notices := [.scrubPass 1, .slotReady 1, .slotExpired 2] }
     (s.link .link0).state ≠ .down ∧ (s.link .link0).notices = [.scrubPass 1] ++ .slotReady 1 :: [.slotExpired 2] ∧
       (Notice.slotReady 1).classCode = (Notice.slotReady 8).classCode ∧
       ∀ q ∈ [Notice.scrubPass 1] ++ [.slotExpired 2], q.classCode ≠ (Notice.slotReady 8).classCode) ∧
    (∀ (i : LinkId) (k : SlotId), ((match i with
        | .link0 => 0x9
        | .link1 => 0) : BitVec 4).getLsbD k.val = true ↔ (i, k) ∈ [((.link0, 0) : SlotRef), (.link0, 3)]) := by
  refine ⟨rfl, by decide +kernel, by decide +kernel, by decide +kernel, fun i k => ?_⟩
  cases i <;> revert k <;> decide

theorem witness_FieldEncodings :
    (65535 : Nat) < 65536 ∧ (16777215 : Nat) < 16777216 ∧ (markBytes (List.replicate 9 true))[1]? = some 1 ∧
    (transfer .read).phase = .data ∧ ({ transfer .read with phase := .final } : Transfer).phase = .final ∧
    ({ transfer .read with phase := .halted .access } : Transfer).phase = .halted .access := by decide

/-- The store busy and idle; a client to serve after the last-served; and the heads of the Clearer's, the Copy Engine's and the
Scrubber's work. -/
theorem witness_ArbiterServesRing :
    base.arbiter.current.isSome = true ∧
    (let a : Arbiter := { current := none, waiting := [.clearer, .dataPath .link0], lastServed := .copyEngine }
     let ring : List Client := [.dataPath .link0, .dataPath .link1, .copyEngine, .clearer, .scrubber]
     ring[2]? = some a.lastServed ∧ ring[(2 + 1) % 5]? = some .clearer ∧ .clearer ∈ a.waiting ∧
       ring[(2 + 5) % 5]? = some .copyEngine) ∧
    base.clearQueue = 4095 :: [] ∧ (withJobs eightJobs).jobs = ⟨.move none, 2, 8, [], .queued⟩ :: eightJobs.tail ∧
    (checking 5 .walk).scrub.engine = .busy 5 .walk ∧
    let s : State := { base with arbiter := { current := none, waiting := [.clearer], lastServed := .clearer } }
    s.arbiter.current = none ∧ (∀ i : LinkId, (s.link i).canTake = false) ∧ s.arbiter.next = some .clearer ∧
      (s.grant .clearer).arbiter.current.isSome = true :=
  ⟨by decide +kernel, by decide, by decide +kernel, by decide +kernel, by decide +kernel, by decide +kernel,
   fun i => by cases i <;> decide +kernel, by decide +kernel, by decide +kernel⟩

/-- Words of the cleared frame 0 with no, one and two differing bits, at the ends of their ranges. -/
theorem witness_StorageFaultStrikes :
    State.reset.memory.damageOf 0 63 = 0 ∧
    (State.reset.memory.strike 0 63 71).damageOf 0 63 = BitVec.twoPow 72 71 ∧
    let d := ((State.reset.memory.strike 0 63 71).strike 0 63 0).damageOf 0 63
    d.getLsbD 71 = true ∧ d.getLsbD 0 = true := by decide +kernel

/-- 64 bytes from byte 509 of frame 0 on, in frame 1 from byte 0 to 60: two words are read for merge, the first sound and
then UNCORRECTABLE, the second CORRECTED; and bytes 448 to 511 of one frame. -/
theorem witness_StoreAccesses :
    let m := (State.reset.memory.clearFrame 1).strike 1 7 3
    let bad := (m.strike 0 63 71).strike 0 63 0
    ((509 : Nat) < 512 ∧ 1 ≤ 64 ∧ (bytes 64).length = 64 ∧ (0 : FrameId) ≠ 4095 ∧ (511 : Nat) < 512) ∧
    segmentParts 0 1 509 64 = [⟨0, 509, 3⟩, ⟨1, 0, 61⟩] ∧ segmentParts 0 1 448 64 = [⟨0, 448, 64⟩] ∧
    (segmentMerges 0 1 509 64 0 63 ∧ segmentMerges 0 1 509 64 1 7 ∧ segmentTouches 0 1 509 64 1 0 ∧
      ¬segmentMerges 0 1 509 64 1 0 ∧ ¬segmentTouches 0 1 509 64 1 8) ∧
    (m.errorOf 0 63 = none ∧ m.errorOf 1 7 = some (.corrected 3) ∧ bad.errorOf 0 63 = some .uncorrectable ∧
      bad.errorOf 1 7 = some (.corrected 3)) := by
  refine ⟨by decide, rfl, rfl, ⟨?_, ?_, ?_, ?_, ?_⟩, by decide +kernel⟩ <;>
    simp [segmentMerges, segmentTouches]

/-! ### Worked values: framing and messages -/

/-- The check value of R117. -/
theorem test_crc : crcBytes 0xFFFF [0x31, 0x32, 0x33, 0x34, 0x35, 0x36, 0x37, 0x38, 0x39] = 0x29B1 := by decide +kernel

/-- 6.6, the second sequence: at a LEN of 80 the bytes 0xC3, 0x21, 0x50 are examined again, and the host's SYNC, KIND and TAG
stand. -/
theorem test_len_discard_rescans :
    let t := after (.linkFrameLenDiscard .link0 0x50) (receiving .header [0xC3, 0x21])
    t.link0.rx.state = .header ∧ t.link0.rx.kept = [0x21, 0x50] ∧ t.link0.discarded = 1 := by decide +kernel

/-- 6.6, Table 6-7: a LEN of 7 is taken. -/
theorem test_byteReceived :
    let t := after (.byteReceived .link0 7) (receiving .header [0xC3, 0x21])
    t.link0.rx.state = .payload ∧ t.link0.discarded = 0 := by decide +kernel

theorem test_check_discard :
    (after (.linkFrameCheckDiscard .link0 0x55) (receiving .check [1, 1, 1, 1, 0xE6])).link0.discarded = 1 := by
  decide +kernel

theorem test_gap_expiry :
    (after (.interByteGapExpiry .link0) (receiving .payload [1, 1, 2])).link0.rx = Receiver.hunting := by decide +kernel

/-- R122: a byte whose stop bit is low, then RXD high before 2 ms. -/
theorem test_stopBitLow :
    (after (.stopBitLow .link0) (receiving .payload [1, 1, 2])).link0.rx.state = .low ∧
    (after (.rxdReturnsHigh .link0) (after (.stopBitLow .link0) (receiving .payload [1, 1, 2]))).link0.discarded = 1 := by
  decide +kernel

theorem test_break :
    (after (.lineBreak .link0) (after (.stopBitLow .link0) base)).link0.state = .down := by decide +kernel

/-- R124: with eight general places occupied a sound message is discarded and counted. -/
theorem test_places_full :
    let s := withLink fun l => { l with
      sending := some ⟨0x83, 1, [0], .general⟩, queue := List.replicate 7 ⟨0x83, 1, [0], .general⟩ }
    (after (.generalPlacesFullDiscard .link0) s).link0.discarded = 1 ∧
    (after (.partStatus .link0 5 []) s).link0.discarded = 1 := by decide +kernel

/-- 10.8: the DATA_LOST notice for frame 104 and space 3, and the two mark lists of the USAGE reply. -/
theorem test_payloads :
    (Notice.dataLost 104 (spaceSet 2) 1).payload = [0x06, 0x00, 0x68, 0x00, 0x04, 0x01] ∧
    markBytes [true, true, false, false, false, false, false, false, false, false, false, true] = [0x03, 0x08] ∧
    markBytes [false, true, false, false, false, false, false, false, false, false, false, false] = [0x02, 0x00] := by
  decide +kernel

/-- 10.8: the SEG reply of slot 2 at position 528. -/
theorem test_seg_payload : segPayload .ok 2 true 528 (bytes 16) = [0, 2, 1, 0, 2, 0x10] ++ bytes 16 := by decide +kernel

/-! ### Worked values: requests on `base` -/

/-- The payload of the message that Link 0 sends after a command on an idle transmitter. -/
def replyOf (c : Instr) (s : State) : Option (List Byte) := (after c s).link0.sending.map Outgoing.payload

/-- R137: an unknown KIND is refused with BAD_KIND. -/
theorem test_badKind : replyOf (.badKindMessage .link0 0x55 9 []) base = some [0x55, 0x10] := by decide +kernel

/-- 11.2: family 0x0416; the retired list of `base` has length 1. -/
theorem test_hello :
    replyOf (.hello .link0 1 [1]) (withLink fun l => { l with state := .down }) =
      some [0, 4, 0x16, 1, 0x10, 0, 2, 0, 0x10, 4, 0, 1] := by decide +kernel

theorem test_goodbye :
    (after (.messageSent .link0 false) (after (.goodbye .link0 5 []) base)).link0.state = .down := by decide +kernel

theorem test_wake :
    (after (.wake .link0 5 []) (withLink fun l => { l with state := .dormant })).link0.state = .up := by decide +kernel

/-- R193: NOTICE class 0 does not exist, so bit 0 of the mask is out of range. -/
theorem test_noticeMask : replyOf (.configNoticeMask .link0 5 [0, 1]) base = some [0x17, 1, 0, 0] := by decide +kernel

theorem test_dormancyInterval :
    (after (.messageSent .link0 false) (after (.configDormancyInterval .link0 5 [0, 10]) base)).link0.dormancyTimer =
      .running := by decide +kernel

theorem test_slotTimeout :
    (after (.configSlotTimeout .link0 5 [0, 0]) (withSlot (transfer .read))).slot (.link0, 0) =
      .active { transfer .read with timer := .stopped } := by decide +kernel

theorem test_scrubInterval : replyOf (.configScrubInterval .link0 5 [3, 0xE9]) base = some [0x17, 4, 0, 10] := by
  decide +kernel

theorem test_retireThreshold : (after (.configRetireThreshold .link0 5 [0, 15]) base).scrub.threshold = 15 := by
  decide +kernel

/-- R38: three free frames are not below a mark of 3 and are below one of 4. -/
theorem test_lowMark :
    (after (.configLowMark .link0 5 [0, 3]) base).supply = .normal ∧
    (after (.configLowMark .link0 5 [0, 4]) base).link1.sending.map Outgoing.payload = some [1, 1, 0, 3] := by
  decide +kernel

theorem test_configQuery :
    replyOf (.configQuery .link0 5 6 [0, 0]) base = some [0, 0x86, 0, 64] ∧
    replyOf (.configQuery .link0 5 0 [0, 0]) base = some [0x17, 0x80, 0, 0] := by decide +kernel

theorem test_linkStatus :
    replyOf (.linkStatus .link0 5 [1]) (withLink fun l => { l with discarded := 300 }) =
      some [0, 1, 1, 0x2C, 0, 0, 0, 0, 0, 0, 0, 0] := by decide +kernel

theorem test_spaceCreate :
    replyOf (.spaceCreate .link0 5 [1, 0]) base = some [0, 4, 1, 0] ∧
    replyOf (.spaceCreate .link0 5 [1, 1]) base = some [0x17, 0, 0, 0] := by decide +kernel

/-- 11.4: SPACE_CHANGED naming space 1 is raised on the guest link. -/
theorem test_spaceGrant :
    (after (.spaceGrant .link0 5 [1, 2]) base).link1.sending.map Outgoing.payload = some [4, 0, 1] ∧
    (after (.spaceGrant .link0 5 [1, 1]) base).link1.sending = none := by decide +kernel

theorem test_spaceInfo : replyOf (.spaceInfo .link0 5 [2]) base = some [0, 2, 1, 0, 1, 2, 0, 0, 0] := by decide +kernel

/-- MAP of pages 6 and 7: page 6 is present, so page 7 takes the head of the free queue. -/
theorem test_map :
    let t := after (.map .link0 5 [1, 0, 6, 0, 2]) base
    t.frame 5 = record (.held [(0, 7)]) ∧ t.freeQueue = [6, 7] := by decide +kernel

theorem test_map_noFrame : replyOf (.map .link0 5 [2, 0, 0, 0, 4]) base = some [0x30, 0, 4] := by decide +kernel

/-- UNMAP of pages 0 to 2: frames 0 and 1 are released in order. -/
theorem test_unmap :
    let t := after (.unmap .link0 5 [1, 0, 0, 0, 3]) base
    t.clearQueue = [4095, 0, 1] ∧ (t.frame 1).state = .clearing := by decide +kernel

/-- A poisoned frame released is RETIRED (R35). -/
theorem test_unmap_poisoned :
    (after (.unmap .link0 5 [1, 0, 4, 0, 1]) base).scrub.retired = [9, 3] := by decide +kernel

theorem test_protect :
    replyOf (.protect .link0 5 [1, 0, 0, 0, 8, 1]) base = some [0, 0, 6] := by decide +kernel

/-- CLONE of pages 1 and 2 of space 1: frame 1 reaches a share count of 4. -/
theorem test_clone :
    ((after (.clone .link0 5 [1, 0, 1, 2, 0, 0, 0, 2]) base).frame 1).state =
      .held [(0, 1), (0, 2), (1, 0), (1, 1)] := by decide +kernel

theorem test_usage : replyOf (.usage .link0 5 [1, 0, 0, 0, 8, 0]) base = some [0, 0, 8, 2, 4] := by decide +kernel

/-! ### Worked values: transfers -/

/-- 11.3: an OPEN that ends at the end of its space is accepted, and one byte more is refused. -/
theorem test_openSlot :
    replyOf (.openSlot .link0 5 [0, 1, 1, 0, 0, 0, 0, 0x10, 0]) base = some [0, 0] ∧
    replyOf (.openSlot .link0 5 [0, 1, 1, 0, 0, 1, 0, 0x10, 0]) base = some [0x17, 0] := by decide +kernel

/-- 11.5: a retransmission is answered with the saved data, and a first segment of toggle 1 with SEQUENCE. -/
theorem test_seg_answered_at_once :
    replyOf (.seg .link0 5 [0, 0, 64]) (withSlot { transfer .read with
      position := 2, toggle := true, last := some ⟨false, 2, 2, [0xAA, 0xBB]⟩ }) = some [0, 0, 1, 0, 0, 2, 0xAA, 0xBB] ∧
    replyOf (.seg .link0 5 [0, 1, 64]) (withSlot (transfer .read)) = some [0x44, 0, 0, 0, 0, 0] := by decide +kernel

/-- R165: a granted write of two bytes to page 0 lands at address 500 of frame 0. -/
theorem test_seg_granted :
    let t := ((withSlot (transfer .write)).onLink .link0 fun l =>
      { l with segment := some ⟨9, 0, false, [0x12, 0x34], 2⟩ }).grantSegment .link0
    t.memory.readByte 0 500 = 0x12 ∧ t.memory.readByte 0 501 = 0x34 ∧ t.memory.readByte 0 502 = 0 := by decide +kernel

/-- 11.4, step 5: a write to a page of a shared frame makes a PRIVATE job on the head of the free queue. -/
theorem test_seg_needs_copy :
    let t := (granted (transfer .write) 13).grantSegment .link0
    t.jobs = [⟨.privateCopy (0, 1), 1, 5, [(.link0, 0)], .copying⟩] ∧ (t.frame 5).state = .target := by decide +kernel

theorem test_closeSlot :
    replyOf (.closeSlot .link0 5 [0]) (withSlot { transfer .write with position := 528 }) = some [0, 0, 2, 0, 2, 0x10] ∧
    replyOf (.closeSlot .link0 5 [1]) base = some [0x41, 1, 0, 0, 0, 0] := by decide +kernel

theorem test_slotInfo :
    replyOf (.slotInfo .link0 5 [0]) (withSlot (transfer .write)) =
      some [0, 0, 1, 1, 1, 0, 1, 0xF4, 0, 2, 0x58, 0, 0, 0, 0, 0, 0, 0, 0, 1, 0, 0, 0, 0] := by decide +kernel

/-- R172: the slot keeps EXPIRED and its position. -/
theorem test_slot_expiry :
    (after (.slotIdleTimerExpiry .link0 0) (withSlot { transfer .read with position := 64 })).slot (.link0, 0) =
      .idle (some ⟨.expired, 64⟩) := by decide +kernel

theorem test_dormancy :
    (after (.dormancyTimerExpiry .link0)
      (withLink fun l => { l with dormancyInterval := 10, dormancyTimer := .running })).link0.state = .dormant := by
  decide +kernel

/-! ### Worked values: frames -/

theorem test_frameInfo :
    replyOf (.frameInfo .link0 5 [0, 1]) base = some [0, 0, 1, 2, 2, 0, 0, 0, 0, 0, 0, 2, 1, 1, 1, 2] := by decide +kernel

/-- R109: a FREE frame is RETIRED at once. -/
theorem test_retire_free :
    let t := after (.retire .link0 5 [0, 6]) base
    t.link0.sending.map Outgoing.payload = some [0, 0, 6, 4, 0, 2] ∧ t.freeQueue = [5, 7] := by decide +kernel

/-- 11.8, step 1: a CLEARING frame is made retire-pending and its request waits. -/
theorem test_retire_clearing :
    let t := after (.retire .link0 6 [0, 11]) base
    (t.frame 11).retirePending = true ∧ t.scrub.retireWait = [⟨.link0, 6, 11⟩] ∧ t.link0.sending = none := by
  decide +kernel

theorem test_check :
    (after (.check .link0 5 [0, 0]) base).scrub.engine = .busy 0 (.request .link0 5) ∧
    replyOf (.check .link0 5 [0, 11]) base = some [0x18, 0, 11, 0, 0, 0, 0, 0] := by decide +kernel

theorem test_waitFree :
    replyOf (.waitFree .link0 5 [0, 3, 0, 1]) base = some [0, 0, 3] ∧
    replyOf (.waitFree .link0 5 [0x10, 0, 0, 1]) base = some [0x17, 0, 3] := by decide +kernel

theorem test_waitFree_expiry :
    replyOf (.waitFreeTimerExpiry .link0 9)
      ((after (.waitFree .link0 9 [0, 4, 0, 1]) base)) = some [0x32, 0, 3] := by decide +kernel

/-- R96: a visit of a HELD frame presents a check and moves the cursor. -/
theorem test_walk :
    let t := after .walkTimerExpiry base
    t.scrub.engine = .busy 0 .walk ∧ t.scrub.cursor = 1 ∧ t.arbiter.waiting = [.scrubber] := by decide +kernel

theorem test_clearCompletion :
    let t := after .clearCompletion base
    t.freeQueue = [5, 6, 7, 4095] ∧ (t.frame 4095).state = .free ∧ t.arbiter.current = none := by decide +kernel

/-- 4.10, event 7: case 4 of Table 4-2 moves the page to the target and raises SLOT_READY. -/
theorem test_copyCompletion :
    let t := after .copyCompletion (copying (.privateCopy (0, 1)) 1 [⟨1, 9, .corrected 3⟩])
    (t.frame 1).state = .held [(0, 2)] ∧ (t.frame 1).tally = 1 ∧ (t.frame 8).state = .held [(0, 1)] ∧
      t.link0.sending.map Outgoing.payload = some [2, 1] := by decide +kernel

/-- 5.9: a tally that reaches the threshold on a HELD frame makes a MOVE to the head of the free queue. -/
theorem test_checkCompletion :
    let s := (checking 0 .walk).setFrame 0 { record (.held [(0, 0)]) with tally := 3 }
    let t := after .checkCompletion s
    t.jobs = [⟨.move none, 0, 5, [], .copying⟩] ∧ (t.frame 0).moving = true ∧ t.scrub.walkTimer = .running := by
  decide +kernel

/-- R3: a second struck bit of a word makes it UNCORRECTABLE. -/
theorem test_storageFault :
    (after (.storageFault 0 63 71) State.reset).memory.errorOf 0 63 = some (.corrected 71) ∧
    (after (.storageFault 0 63 0) (after (.storageFault 0 63 71) State.reset)).memory.errorOf 0 63 =
      some .uncorrectable := by decide +kernel

/-! ### Worked values: resets -/

/-- R24, R114: a power-on loses the retired list, and RESET_N keeps it. -/
theorem test_resets :
    (after (.powerOn ⟨0, false⟩ ⟨3, true⟩) base).scrub.retired = [] ∧
    (after (.powerOn ⟨0, false⟩ ⟨3, true⟩) base).link1.rx.state = .low ∧
    (after .resetN base).scrub.retired = [9] ∧ (after .resetN base).resetLow = true := by decide +kernel

theorem test_resetNRelease :
    (after (.resetNRelease ⟨2, false⟩ ⟨0, false⟩) { State.reset with resetLow := true }).link0.rate = 2 := by
  decide +kernel

end Sys2Proof.Tests
end

section
/-! SUPPORT. The laws of the store's accesses (R1–R9): what each reads, what it writes, and what it leaves alone. -/

namespace Sys2Proof.Machine

variable (m : Memory) (f g : FrameId) (o : Nat) (w v : WordId)

/-! ### Errors met (R3, R4) -/

theorem mem_errorsIn (words : List (FrameId × WordId)) (e : ErrorEvent) :
    e ∈ m.errorsIn words ↔ (e.frame, e.word) ∈ words ∧ m.errorOf e.frame e.word = some e.kind := by
  obtain ⟨ef, ew, ek⟩ := e
  simp only [Memory.errorsIn, List.mem_filterMap, Option.map_eq_some_iff, Prod.exists, ErrorEvent.mk.injEq]
  constructor
  · rintro ⟨a, b, hm, k, hk, rfl, rfl, rfl⟩; exact ⟨hm, hk⟩
  · rintro ⟨hm, hk⟩; exact ⟨ef, ew, hm, ek, hk, rfl, rfl, rfl⟩

theorem anyUncorrectable_errorsIn (words : List (FrameId × WordId)) :
    anyUncorrectable (m.errorsIn words) = true ↔ ∃ g v, (g, v) ∈ words ∧ m.errorOf g v = some .uncorrectable := by
  simp only [anyUncorrectable, List.any_eq_true, mem_errorsIn, decide_eq_true_eq]
  constructor
  · rintro ⟨⟨ef, ew, ek⟩, ⟨hm, hk⟩, rfl⟩; exact ⟨ef, ew, hm, hk⟩
  · rintro ⟨g, v, hm, hk⟩; exact ⟨⟨g, v, .uncorrectable⟩, ⟨hm, hk⟩, rfl⟩

/-! ### Fresh check bits and write-backs (R2, R3) -/

@[simp] theorem readByte_freshen : (m.freshen f w).readByte g o = m.readByte g o := readByte_setDamage ..

theorem damageOf_setDamage (d : BitVec 72) :
    (m.setDamage f w d).damageOf g v = if g = f ∧ v = w then d else m.damageOf g v := by
  split
  · next h => obtain ⟨rfl, rfl⟩ := h; exact damageOf_setDamage_same ..
  · next h => exact damageOf_setDamage_other m f g w d h

theorem damageOf_freshen : (m.freshen f w).damageOf g v = if g = f ∧ v = w then 0 else m.damageOf g v :=
  damageOf_setDamage ..

@[simp] theorem readByte_writeBack (es : List ErrorEvent) : (m.writeBack es).readByte g o = m.readByte g o := by
  refine foldl_keeps (fun x : Memory => x.readByte g o = m.readByte g o) _ es (fun x e _ hx => ?_) m rfl
  split
  · exact hx
  · rw [readByte_freshen, hx]

/-- A write-back makes the words found CORRECTED sound (R3). -/
theorem damageOf_writeBack (es : List ErrorEvent) : (m.writeBack es).damageOf g v =
    if ∃ e ∈ es, e.frame = g ∧ e.word = v ∧ e.kind ≠ .uncorrectable then 0 else m.damageOf g v := by
  induction es generalizing m with
  | nil => simp [Memory.writeBack]
  | cons e es ih =>
    have hstep : (m.writeBack (e :: es)) =
      (if e.kind = .uncorrectable then m else m.freshen e.frame e.word).writeBack es := rfl
    rw [hstep, ih]
    by_cases hk : e.kind = .uncorrectable
    · simp [hk]
    · rw [if_neg hk, damageOf_freshen]
      by_cases hes : ∃ e ∈ es, e.frame = g ∧ e.word = v ∧ e.kind ≠ .uncorrectable
      · have hes' : ∃ e' ∈ e :: es, e'.frame = g ∧ e'.word = v ∧ e'.kind ≠ .uncorrectable :=
          hes.imp fun _ h => ⟨List.mem_cons_of_mem _ h.1, h.2⟩
        rw [if_pos hes, if_pos hes']
      · rw [if_neg hes]
        refine if_congr ⟨fun h => ⟨e, List.mem_cons_self, h.1.symm, h.2.symm, hk⟩, ?_⟩ rfl rfl
        rintro ⟨e', he', h1, h2, h3⟩
        rcases List.mem_cons.1 he' with rfl | he'
        · exact ⟨h1.symm, h2.symm⟩
        · exact absurd ⟨e', he', h1, h2, h3⟩ hes

/-- The write-back of the errors met in some words makes exactly those found CORRECTED sound. -/
theorem damageOf_writeBack_errorsIn (words : List (FrameId × WordId)) :
    (m.writeBack (m.errorsIn words)).damageOf g v =
      if (g, v) ∈ words ∧ ∃ b, m.errorOf g v = some (.corrected b) then 0 else m.damageOf g v := by
  rw [damageOf_writeBack]
  refine if_congr ⟨?_, ?_⟩ rfl rfl
  · rintro ⟨e, he, rfl, rfl, hk⟩
    obtain ⟨hm, ho⟩ := (mem_errorsIn ..).1 he
    refine ⟨hm, ?_⟩
    cases hkind : e.kind with
    | corrected b => exact ⟨b, hkind ▸ ho⟩
    | uncorrectable => exact absurd hkind hk
  · rintro ⟨hm, b, hb⟩
    exact ⟨⟨g, v, .corrected b⟩, (mem_errorsIn ..).2 ⟨hm, hb⟩, rfl, rfl, nofun⟩

/-- Words made sound one after another (R2). -/
theorem damageOf_freshenAll (words : List (FrameId × WordId)) :
    (words.foldl (fun m (f, w) => m.freshen f w) m).damageOf g v = if (g, v) ∈ words then 0 else m.damageOf g v := by
  induction words generalizing m with
  | nil => simp
  | cons a words ih =>
    obtain ⟨a, b⟩ := a
    rw [List.foldl_cons, ih, damageOf_freshen]
    by_cases h1 : (g, v) ∈ words <;> by_cases h2 : g = a ∧ v = b <;> simp [h1, h2]

theorem readByte_freshenAll (words : List (FrameId × WordId)) :
    (words.foldl (fun m (f, w) => m.freshen f w) m).readByte g o = m.readByte g o :=
  foldl_keeps (fun x : Memory => x.readByte g o = m.readByte g o) _ words
    (fun x a _ hx => (readByte_freshen x a.1 g o a.2).trans hx) m rfl

/-! ### Runs of bytes written -/

/-- Bytes written in order from an offset of a frame, none beyond its last. -/
theorem readByte_writeRun (offset n : Nat) (bytes : Nat → Byte) (hn : offset + n ≤ 512) (ho : o < 512) :
    ((List.range n).foldl (fun m i => m.writeByte f (offset + i) (bytes i)) m).readByte g o =
      if g = f ∧ offset ≤ o ∧ o < offset + n then bytes (o - offset) else m.readByte g o := by
  induction n with
  | zero => rw [if_neg (by omega)]; rfl
  | succ n ih =>
    rw [List.range_succ, List.foldl_append, List.foldl_cons, List.foldl_nil]
    by_cases h : g = f ∧ o = offset + n
    · obtain ⟨rfl, rfl⟩ := h
      rw [readByte_writeByte_same, if_pos ⟨rfl, by omega, by omega⟩, Nat.add_sub_cancel_left]
    · rw [readByte_writeByte_other _ _ _ _ _ _ (by omega) ho h, ih (by omega)]
      exact if_congr ⟨fun ⟨a, b, c⟩ => ⟨a, b, by omega⟩, fun ⟨a, b, c⟩ => ⟨a, b, by
        have : o ≠ offset + n := fun e => h ⟨a, e⟩
        omega⟩⟩ rfl rfl

@[simp] theorem damageOf_writeRun (offset n : Nat) (bytes : Nat → Byte) :
    ((List.range n).foldl (fun m i => m.writeByte f (offset + i) (bytes i)) m).damageOf g v = m.damageOf g v :=
  foldl_keeps (fun x : Memory => x.damageOf g v = m.damageOf g v) _ _
    (fun x i _ hx => (damageOf_writeByte x f g (offset + i) (bytes i) v).trans hx) m rfl

theorem readByte_writePart (p : Part) (bytes : List Byte) (hp : p.offset + p.count ≤ 512) (ho : o < 512) :
    (m.writePart p bytes).readByte g o =
      if g = p.frame ∧ p.offset ≤ o ∧ o < p.offset + p.count then bytes.getD (o - p.offset) 0 else m.readByte g o :=
  readByte_writeRun m p.frame g o p.offset p.count (fun i => bytes.getD i 0) hp ho

@[simp] theorem damageOf_writePart (p : Part) (bytes : List Byte) :
    (m.writePart p bytes).damageOf g v = m.damageOf g v :=
  damageOf_writeRun m p.frame g v p.offset p.count fun i => bytes.getD i 0

@[simp] theorem damageOf_writeParts (parts : List Part) (bytes : List Byte) :
    (m.writeParts parts bytes).damageOf g v = m.damageOf g v := by
  induction parts generalizing m bytes with
  | nil => rfl
  | cons p rest ih => rw [Memory.writeParts, ih, damageOf_writePart]

/-- A segment's bytes are written to its own frames only. -/
theorem readByte_writeParts_other (parts : List Part) (bytes : List Byte)
    (hp : ∀ p ∈ parts, p.offset + p.count ≤ 512 ∧ p.frame ≠ g) (ho : o < 512) :
    (m.writeParts parts bytes).readByte g o = m.readByte g o := by
  induction parts generalizing m bytes with
  | nil => rfl
  | cons p rest ih =>
    obtain ⟨hb, hf⟩ := hp p List.mem_cons_self
    rw [Memory.writeParts, ih _ _ fun q hq => hp q (List.mem_cons_of_mem _ hq),
      readByte_writePart _ _ _ _ _ hb ho, if_neg fun h => hf h.1.symm]

/-! ### The words of a part (R5, R6) -/

theorem mem_partWords (p : Part) : (g, v) ∈ p.words ↔
    g = p.frame ∧ 8 * v.val < p.offset + p.count ∧ p.offset < 8 * v.val + 8 := by
  simp only [Part.words, List.mem_map, List.mem_filter, List.mem_finRange, true_and, decide_eq_true_eq, Prod.mk.injEq]
  constructor
  · rintro ⟨_, h, rfl, rfl⟩; exact ⟨rfl, h⟩
  · rintro ⟨rfl, h⟩; exact ⟨v, h, rfl, rfl⟩

theorem mem_mergeWords (p : Part) : (g, v) ∈ p.mergeWords ↔
    (g, v) ∈ p.words ∧ ¬(p.offset ≤ 8 * v.val ∧ 8 * v.val + 8 ≤ p.offset + p.count) := by
  rw [Part.mergeWords, List.mem_filter, decide_eq_true_eq]

theorem partWords_ascend (p : Part) : p.words.Pairwise fun a b => a.2 < b.2 := by
  unfold Part.words
  rw [List.pairwise_map]
  exact (List.pairwise_lt_finRange 64).filter _

theorem mem_frameWords : (g, v) ∈ frameWords f ↔ g = f := by
  simp [frameWords, eq_comm]

/-- A segment access reads and writes bytes of its parts' frames only. -/
theorem readByte_segmentWrite_other (parts : List Part) (bytes : List Byte)
    (hp : ∀ p ∈ parts, p.offset + p.count ≤ 512 ∧ p.frame ≠ g) (ho : o < 512) :
    (m.segmentWrite parts bytes).1.readByte g o = m.readByte g o := by
  unfold Memory.segmentWrite
  dsimp only
  split
  · exact readByte_writeBack ..
  · rw [readByte_freshenAll, readByte_writeParts_other _ _ _ _ _ hp ho]

@[simp] theorem readByte_segmentRead (parts : List Part) :
    (m.segmentRead parts).1.readByte g o = m.readByte g o := readByte_writeBack ..

/-! ### Whole-frame accesses (R7–R9) -/

theorem damageOf_clearFrame_other (h : g ≠ f) : (m.clearFrame f).damageOf g w = m.damageOf g w := by
  unfold Memory.damageOf Memory.clearFrame
  have hv : f.val ≠ g.val := fun e => h (Fin.ext e.symm)
  have hn : wordNumber g w / 64 = g.val := by unfold wordNumber; omega
  have hk := sparseGet_filter m.damage (wordNumber g w) fun n => decide (n / 64 ≠ f.val)
  simp only [hn, ne_eq, Ne.symm hv, not_false_iff, decide_true, if_true] at hk
  simp only [ne_eq] at hk ⊢
  rw [hk]
  simp [Vector.get_eq_getElem, Vector.getElem_set_ne, hv]

theorem readByte_clearFrame (ho : o < 512) :
    (m.clearFrame f).readByte g o = if g = f then 0 else m.readByte g o := by
  split
  · next h => rw [h]; exact readByte_clearFrame_same m f o ho
  · next h => exact readByte_clearFrame_other m f g o ho h

theorem damageOf_clearFrame : (m.clearFrame f).damageOf g w = if g = f then 0 else m.damageOf g w := by
  split
  · next h => rw [h]; exact damageOf_clearFrame_same m f w
  · next h => exact damageOf_clearFrame_other m f g w h

@[simp] theorem readByte_frameCheck : (m.frameCheck f).1.readByte g o = m.readByte g o := readByte_writeBack ..

theorem damageOf_frameCheck : (m.frameCheck f).1.damageOf g w =
    if g = f ∧ ∃ b, m.errorOf f w = some (.corrected b) then 0 else m.damageOf g w := by
  refine (damageOf_writeBack_errorsIn ..).trans (if_congr ?_ rfl rfl)
  rw [mem_frameWords]
  exact and_congr_right fun h => by rw [h]

theorem readByte_copyData (h : FrameId) (ho : o < 512) :
    (m.copyData f h).readByte g o = if g = h then m.readByte f o else m.readByte g o := by
  have hrun := readByte_writeRun (m.clearFrame h) h g o 0 512 (fun i => m.readByte f i) (by omega) ho
  simp only [Nat.zero_add] at hrun
  rw [Memory.copyData, hrun, readByte_clearFrame m h g o ho]
  by_cases hg : g = h <;> simp [hg, ho]

theorem damageOf_copyData (h : FrameId) :
    (m.copyData f h).damageOf g w = if g = h then 0 else m.damageOf g w := by
  have hrun := damageOf_writeRun (m.clearFrame h) h g w 0 512 fun i => m.readByte f i
  simp only [Nat.zero_add] at hrun
  rw [Memory.copyData, hrun, damageOf_clearFrame]

/-- Whether a whole-frame read of a frame meets an UNCORRECTABLE word. -/
theorem anyUncorrectable_frameWords :
    anyUncorrectable (m.errorsIn (frameWords f)) = true ↔ ∃ v, m.errorOf f v = some .uncorrectable := by
  rw [anyUncorrectable_errorsIn]
  constructor
  · rintro ⟨g, v, hm, hk⟩
    rw [mem_frameWords] at hm
    exact ⟨v, hm ▸ hk⟩
  · rintro ⟨v, hk⟩; exact ⟨f, v, (mem_frameWords ..).2 rfl, hk⟩

/-- A copy changes bytes of its target only (R7). -/
theorem readByte_frameCopy (h : FrameId) (ho : o < 512) : (m.frameCopy f h).1.readByte g o =
    if g = h ∧ ¬∃ v, m.errorOf f v = some .uncorrectable then m.readByte f o else m.readByte g o := by
  unfold Memory.frameCopy
  dsimp only
  by_cases hb : ∃ v, m.errorOf f v = some .uncorrectable
  · rw [if_pos ((anyUncorrectable_frameWords m f).2 hb), readByte_writeBack, if_neg fun x => x.2 hb]
  · rw [if_neg (mt (anyUncorrectable_frameWords m f).1 hb), readByte_copyData _ _ _ _ _ ho, readByte_writeBack,
      readByte_writeBack]
    exact if_congr (by simp [hb]) rfl rfl

theorem damageOf_frameCopy (h : FrameId) : (m.frameCopy f h).1.damageOf g w =
    if g = h ∧ ¬∃ v, m.errorOf f v = some .uncorrectable then 0
    else if g = f ∧ ∃ b, m.errorOf f w = some (.corrected b) then 0 else m.damageOf g w := by
  have hback := damageOf_frameCheck m f g w
  change (m.writeBack _).damageOf g w = _ at hback
  unfold Memory.frameCopy
  dsimp only
  by_cases hb : ∃ v, m.errorOf f v = some .uncorrectable
  · rw [if_pos ((anyUncorrectable_frameWords m f).2 hb), hback]
    exact (if_neg fun x => x.2 hb).symm
  · rw [if_neg (mt (anyUncorrectable_frameWords m f).1 hb), damageOf_copyData, hback]
    exact if_congr (by simp [hb]) rfl rfl

/-! ### Segment accesses (R5, R6) -/

section Segment

variable (first second : FrameId) (offset count : Nat)

/-- The words of a segment's parts are those that hold a byte of it. -/
theorem mem_segmentWords (hc : count ≤ 64) :
    (g, v) ∈ (segmentParts first second offset count).flatMap Part.words ↔
      segmentTouches first second offset count g v := by
  have hv := v.isLt
  unfold segmentParts segmentTouches
  split
  · simp only [List.flatMap_cons, List.flatMap_nil, List.append_nil, mem_partWords]
    constructor
    · rintro ⟨h, h1, h2⟩; exact Or.inl ⟨h, h2, h1⟩
    · rintro (⟨h, h1, h2⟩ | ⟨_, h1⟩)
      · exact ⟨h, h2, h1⟩
      · omega
  · simp only [List.flatMap_cons, List.flatMap_nil, List.append_nil, List.mem_append, mem_partWords]
    refine or_congr (and_congr_right fun _ => ?_) (and_congr_right fun _ => ?_) <;> omega

/-- The words of a segment read for merge are those it names in part. -/
theorem mem_segmentMergeWords (hc : count ≤ 64) :
    (g, v) ∈ (segmentParts first second offset count).flatMap Part.mergeWords ↔
      segmentMerges first second offset count g v := by
  have hv := v.isLt
  unfold segmentParts segmentMerges
  split
  · simp only [List.flatMap_cons, List.flatMap_nil, List.append_nil, mem_mergeWords, mem_partWords]
    constructor
    · rintro ⟨⟨h, h1, h2⟩, h3⟩; exact Or.inl ⟨h, h2, h1, by omega⟩
    · rintro (⟨h, h1, h2, h3⟩ | ⟨_, h1, _⟩)
      · exact ⟨⟨h, h2, h1⟩, by omega⟩
      · omega
  · simp only [List.flatMap_cons, List.flatMap_nil, List.append_nil, List.mem_append, mem_mergeWords, mem_partWords,
      and_assoc]
    refine or_congr (and_congr_right fun _ => ?_) (and_congr_right fun _ => ?_) <;> omega

/-- The bytes a segment read delivers, in order (R5). -/
theorem getElem?_segmentBytes (j : Nat) (hj : j < count) (ho : offset < 512) :
    ((segmentParts first second offset count).flatMap m.readPart)[j]? = some
      (if offset + j < 512 then m.readByte first (offset + j) else m.readByte second (offset + j - 512)) := by
  unfold segmentParts
  split
  · simp only [List.flatMap_cons, List.flatMap_nil, List.append_nil, Memory.readPart]
    rw [List.getElem?_map, List.getElem?_range hj, if_pos (by omega)]
    rfl
  · simp only [List.flatMap_cons, List.flatMap_nil, List.append_nil, Memory.readPart]
    by_cases h : offset + j < 512
    · rw [List.getElem?_append_left (by simp; omega), List.getElem?_map, List.getElem?_range (by omega), if_pos h]
      rfl
    · rw [List.getElem?_append_right (by simp; omega), List.length_map, List.length_range, List.getElem?_map,
        List.getElem?_range (by omega), if_neg h, Option.map_some, Nat.zero_add,
        show j - (512 - offset) = offset + j - 512 by omega]

theorem length_segmentBytes (ho : offset < 512) :
    ((segmentParts first second offset count).flatMap m.readPart).length = count := by
  unfold segmentParts
  split
  · simp [Memory.readPart]
  · simp [Memory.readPart]; omega

/-- The bytes a segment write leaves (R6): each named byte its new value, every other its old one. -/
theorem readByte_writeParts (bytes : List Byte) (ho : offset < 512) (hc : count ≤ 64) (hb : o < 512) :
    (m.writeParts (segmentParts first second offset count) bytes).readByte g o =
      if g = first ∧ offset ≤ o ∧ o < offset + count then bytes.getD (o - offset) 0
      else if g = second ∧ 512 + o < offset + count then bytes.getD (512 + o - offset) 0
      else m.readByte g o := by
  unfold segmentParts
  split
  · next h =>
    rw [Memory.writeParts, Memory.writeParts, readByte_writePart _ _ _ _ _ (by exact h) hb]
    have h2 : ¬(g = second ∧ 512 + o < offset + count) := by omega
    rw [if_neg h2]
  · next h =>
    rw [Memory.writeParts, Memory.writeParts, Memory.writeParts,
      readByte_writePart _ _ _ _ _ (by dsimp only; omega) hb, readByte_writePart _ _ _ _ _ (by dsimp only; omega) hb]
    dsimp only
    by_cases h1 : g = first ∧ offset ≤ o ∧ o < offset + count
    · obtain ⟨hg, h1, h2⟩ := h1
      rw [if_neg (by omega), if_pos ⟨hg, h1, by omega⟩, if_pos ⟨hg, h1, h2⟩]
    · rw [if_neg h1]
      by_cases h2 : g = second ∧ 512 + o < offset + count
      · rw [if_pos ⟨h2.1, by omega, by omega⟩, if_pos h2, List.getD_eq_getElem?_getD, List.getElem?_drop,
          List.getD_eq_getElem?_getD, show 512 - offset + (o - 0) = 512 + o - offset by omega]
      · rw [if_neg fun x => h2 ⟨x.1, by omega⟩, if_neg h2, if_neg fun x => h1 ⟨x.1, x.2.1, by omega⟩]

end Segment

/-- Settles O60: the whole-frame accesses by the laws of copies and write-backs, the segment accesses by the words and
bytes of their parts. -/
theorem storeAccesses : Obligations.StoreAccesses := by
  refine ⟨fun m f g h o w ho => ⟨readByte_clearFrame m f g o ho, damageOf_clearFrame m f g w, readByte_frameCheck ..,
      damageOf_frameCheck .., fun _ => ⟨readByte_frameCopy m f g o h ho, damageOf_frameCopy m f g w h⟩⟩,
    mem_errorsIn, fun p => ⟨partWords_ascend p, (partWords_ascend p).filter _, fun g v => ⟨mem_partWords g v p,
      mem_mergeWords g v p⟩⟩, ?_⟩
  intro m first second offset count ho _ hc parts touches merges
  have hwords : ∀ g v, (g, v) ∈ parts.flatMap Part.words ↔ touches g v := fun g v => mem_segmentWords g v _ _ _ _ hc
  have hmerge : ∀ g v, (g, v) ∈ parts.flatMap Part.mergeWords ↔ merges g v :=
    fun g v => mem_segmentMergeWords g v _ _ _ _ hc
  refine ⟨?_, fun bytes hbytes => ?_⟩
  · intro x bad
    have hbad : anyUncorrectable (m.errorsIn (parts.flatMap Part.words)) = true ↔ bad := by
      rw [anyUncorrectable_errorsIn]; simp only [hwords]; rfl
    refine ⟨fun g o _ => readByte_segmentRead m g o parts, fun g w => ⟨fun h h' => ?_, fun h => ?_⟩, rfl, fun h => ?_,
      fun h => ?_⟩
    · exact (damageOf_writeBack_errorsIn ..).trans (if_pos ⟨(hwords g w).2 h, h'⟩)
    · exact (damageOf_writeBack_errorsIn ..).trans (if_neg fun x => h ⟨(hwords g w).1 x.1, x.2⟩)
    · exact if_pos (hbad.2 h)
    · exact ⟨_, if_neg (mt hbad.1 h), length_segmentBytes m _ _ _ _ ho, fun j hj => getElem?_segmentBytes m _ _ _ _ j hj ho⟩
  · intro x bad
    have hbad : anyUncorrectable (m.errorsIn (parts.flatMap Part.mergeWords)) = true ↔ bad := by
      rw [anyUncorrectable_errorsIn]; simp only [hmerge]; rfl
    have herrors : x.2.1 = m.errorsIn (parts.flatMap Part.mergeWords) := by
      simp only [x, Memory.segmentWrite]; split <;> rfl
    refine ⟨herrors, fun h => ?_, fun h => ?_⟩
    · have hx : x = (m.writeBack (m.errorsIn (parts.flatMap Part.mergeWords)),
          m.errorsIn (parts.flatMap Part.mergeWords), false) := if_pos (hbad.2 h)
      rw [hx]
      exact ⟨rfl, fun g o _ => readByte_writeBack .., fun g w =>
        ⟨fun h h' => (damageOf_writeBack_errorsIn ..).trans (if_pos ⟨(hmerge g w).2 h, h'⟩),
          fun h => (damageOf_writeBack_errorsIn ..).trans (if_neg fun x => h ⟨(hmerge g w).1 x.1, x.2⟩)⟩⟩
    · have hx : x = ((parts.flatMap Part.words).foldl (fun m (f, w) => m.freshen f w) (m.writeParts parts bytes),
          m.errorsIn (parts.flatMap Part.mergeWords), true) := if_neg (mt hbad.1 h)
      rw [hx]
      refine ⟨rfl, fun g o hb => ?_, fun g w => ?_⟩
      · simp only [readByte_freshenAll]
        rw [readByte_writeParts m g o first second offset count bytes ho hc hb]
        refine ⟨fun h1 h2 h3 => if_pos ⟨h1, h2, h3⟩, fun h1 h2 => ?_, fun h1 h2 => ?_⟩
        · rw [if_neg (by omega), if_pos ⟨h1, h2⟩]
        · rw [if_neg h1, if_neg h2]
      · refine ⟨fun h => (damageOf_freshenAll ..).trans (if_pos ((hwords g w).2 h)), fun h => ?_⟩
        exact ((damageOf_freshenAll ..).trans (if_neg (mt (hwords g w).1 h))).trans (damageOf_writeParts ..)

/-! ### What the code finds in a word (R3) -/

theorem mem_damagedBits (d : BitVec 72) (i : BitId) : i ∈ damagedBits d ↔ d.getLsbD i.val = true := by
  simp [damagedBits]

theorem damagedBits_ascend (d : BitVec 72) : (damagedBits d).Pairwise fun a b => a < b :=
  (List.pairwise_lt_finRange 72).filter _

theorem damagedBits_zero : damagedBits 0 = [] := by
  rw [List.eq_nil_iff_forall_not_mem]
  intro i
  simp [mem_damagedBits]

theorem damagedBits_twoPow (b : BitId) : damagedBits (BitVec.twoPow 72 b.val) = [b] := by
  refine (damagedBits_ascend _).eq_of_mem_iff (List.pairwise_singleton _ b) fun i => ?_
  rw [mem_damagedBits, BitVec.getLsbD_twoPow, List.mem_singleton]
  simp [b.isLt, Fin.ext_iff, eq_comm]

/-- A word with two differing bits is UNCORRECTABLE (R3). -/
theorem errorOf_uncorrectable (b c : BitId) (hne : b ≠ c) (hb : (m.damageOf f w).getLsbD b.val = true)
    (hc : (m.damageOf f w).getLsbD c.val = true) : m.errorOf f w = some .uncorrectable := by
  rw [← mem_damagedBits] at hb hc
  unfold Memory.errorOf
  generalize damagedBits (m.damageOf f w) = l at hb hc
  match l, hb, hc with
  | [], hb, _ => cases hb
  | [x], hb, hc => exact absurd ((List.mem_singleton.1 hb).trans (List.mem_singleton.1 hc).symm) hne
  | _ :: _ :: _, _, _ => rfl

/-- Settles O59: a strike sets the differing bits of one word, and a read counts them. -/
theorem storageFaultStrikes : Obligations.StorageFaultStrikes := by
  refine ⟨fun s f w b => rfl, fun m f g w v b o => ⟨readByte_setDamage .., damageOf_setDamage ..⟩,
    fun m f w => ⟨fun h => ?_, fun b h => ?_, fun ⟨b, c, hne, hb, hc⟩ => errorOf_uncorrectable m f w b c hne hb hc⟩⟩
  · rw [Memory.errorOf, h, damagedBits_zero]
  · rw [Memory.errorOf, h, damagedBits_twoPow]

end Sys2Proof.Machine
end

section
/-! SUPPORT. What the operations of one event leave alone. Most of them change links, lists of requests and settings that
no invariant of the memory side reads (`State.Calm`); nearly all leave the stored words and the access in progress, make
no frame FREE, and leave no block with work it has not in hand (`State.Orderly`). -/

namespace Sys2Proof.Machine

/-! ### The relations -/

/-- What the invariants read of a copy job: the page or the source it names, its source and its target. -/
def CopyJob.core (j : CopyJob) : Option BackRef × Option FrameId × FrameId × FrameId :=
  (j.entry?, j.moves?, j.source, j.target)

/-- The frame the check engine works on. -/
def Engine.frame? : Engine → Option FrameId
  | .idle => none
  | .busy f _ => some f

/-- A link takes on no segment of more than 64 bytes and no more messages await its intake (R136, R163). -/
structure Link.Quiet (l l' : Link) : Prop where
  segment : ∀ g, l'.segment = some g → l.segment = some g ∨ g.count ≤ 64
  awaiting : l'.awaiting.length ≤ l.awaiting.length

/-- The frame records, their queues, the spaces, the copy jobs and the part's settings are the same. -/
structure State.SameRecords (s t : State) : Prop where
  frames : t.frames = s.frames
  clearQueue : t.clearQueue = s.clearQueue
  freeQueue : t.freeQueue = s.freeQueue
  spaces : t.spaces = s.spaces
  lowMark : t.lowMark = s.lowMark
  retired : t.scrub.retired = s.scrub.retired
  discretionary : t.scrub.discretionary = s.scrub.discretionary
  interval : t.scrub.interval = s.scrub.interval
  threshold : t.scrub.threshold = s.scrub.threshold
  jobs : t.jobs.map CopyJob.core = s.jobs.map CopyJob.core

/-- The blocks have the same work, and the same of it in hand. -/
structure State.SameWork (s t : State) : Prop where
  jobs : t.jobs.map CopyJob.core = s.jobs.map CopyJob.core
  current : t.arbiter.current = s.arbiter.current
  waiting : ∀ c, (∀ i, c ≠ .dataPath i) → c ∈ s.arbiter.waiting → c ∈ t.arbiter.waiting
  presented : ∀ c ∈ t.arbiter.waiting, c ∈ s.arbiter.waiting
  engine : t.scrub.engine.frame? = s.scrub.engine.frame?
  checkQueue : s.scrub.checkQueue = [] → t.scrub.checkQueue = []
  walkTimer : t.scrub.walkTimer = s.scrub.walkTimer

/-- Nothing changes but the links, the notices, the waiting requests and the supply state. -/
structure State.Calm (s t : State) : Prop extends s.SameRecords t, s.SameWork t where
  memory : t.memory = s.memory
  links : ∀ i, (s.link i).Quiet (t.link i)

/-- The Clearer has a clear outstanding while the clear queue is not empty (R26). -/
def State.ClearerServed (s : State) : Prop :=
  s.clearQueue = [] ∨ s.arbiter.clearing = true ∨ Client.clearer ∈ s.arbiter.waiting

/-- The Copy Engine has a copy outstanding while it has jobs (R76). -/
def State.CopierServed (s : State) : Prop :=
  s.jobs = [] ∨ (∃ a b es, s.arbiter.current = some (.copy a b es)) ∨ Client.copyEngine ∈ s.arbiter.waiting

/-- A busy check engine has a check outstanding (R94). -/
def State.CheckerServed (s : State) : Prop :=
  s.scrub.engine = .idle ∨ (∃ f es, s.arbiter.current = some (.check f es)) ∨ Client.scrubber ∈ s.arbiter.waiting

/-- The check engine is idle only with no work to take (R94). -/
def State.EngineServed (s : State) : Prop :=
  s.scrub.engine = .idle → s.scrub.checkQueue = [] ∧ s.scrub.walkTimer ≠ .due

/-- The stored words and the access in progress stay, what is in hand stays in hand, no frame becomes FREE, and each block
that has its work in hand has it in hand still. -/
structure State.Orderly (s t : State) : Prop where
  memory : t.memory = s.memory
  current : t.arbiter.current = s.arbiter.current
  clearQueue : s.clearQueue <+: t.clearQueue
  jobs : s.jobs.map CopyJob.core <+: t.jobs.map CopyJob.core
  engine : ∀ f, s.scrub.engine.frame? = some f → t.scrub.engine.frame? = some f
  free : ∀ f, (t.frame f).state = .free → (s.frame f).state = .free
  links : ∀ i, (s.link i).Quiet (t.link i)
  clearer : s.ClearerServed → t.ClearerServed
  copier : s.CopierServed → t.CopierServed
  checker : s.CheckerServed → t.CheckerServed
  idle : s.EngineServed → t.EngineServed

section

variable {s t u : State} {l l' l'' : Link}

theorem Link.Quiet.refl (l : Link) : l.Quiet l := ⟨fun _ h => Or.inl h, le_rfl⟩

theorem Link.Quiet.trans (h : l.Quiet l') (h' : l'.Quiet l'') : l.Quiet l'' :=
  ⟨fun g hg => (h'.segment g hg).elim (h.segment g) Or.inr, h'.awaiting.trans h.awaiting⟩

/-- A change of a link that keeps its segment and the messages awaiting intake. -/
theorem Link.Quiet.of_eq (h : l'.segment = l.segment) (h' : l'.awaiting = l.awaiting) : l.Quiet l' :=
  ⟨fun _ hg => Or.inl (h ▸ hg), (congrArg List.length h').le⟩

theorem State.SameRecords.refl (s : State) : s.SameRecords s := by constructor <;> rfl

theorem State.SameRecords.trans (h : s.SameRecords t) (h' : t.SameRecords u) : s.SameRecords u where
  frames := h'.frames.trans h.frames
  clearQueue := h'.clearQueue.trans h.clearQueue
  freeQueue := h'.freeQueue.trans h.freeQueue
  spaces := h'.spaces.trans h.spaces
  lowMark := h'.lowMark.trans h.lowMark
  retired := h'.retired.trans h.retired
  discretionary := h'.discretionary.trans h.discretionary
  interval := h'.interval.trans h.interval
  threshold := h'.threshold.trans h.threshold
  jobs := h'.jobs.trans h.jobs

theorem State.SameWork.refl (s : State) : s.SameWork s :=
  ⟨rfl, rfl, fun _ _ h => h, fun _ h => h, rfl, id, rfl⟩

theorem State.SameWork.trans (h : s.SameWork t) (h' : t.SameWork u) : s.SameWork u where
  jobs := h'.jobs.trans h.jobs
  current := h'.current.trans h.current
  waiting c hc hw := h'.waiting c hc (h.waiting c hc hw)
  presented c hc := h.presented c (h'.presented c hc)
  engine := h'.engine.trans h.engine
  checkQueue := h'.checkQueue ∘ h.checkQueue
  walkTimer := h'.walkTimer.trans h.walkTimer

theorem State.Calm.refl (s : State) : s.Calm s :=
  { State.SameRecords.refl s, State.SameWork.refl s with memory := rfl, links := fun _ => .refl _ }

theorem State.Calm.trans (h : s.Calm t) (h' : t.Calm u) : s.Calm u :=
  { h.toSameRecords.trans h'.toSameRecords, h.toSameWork.trans h'.toSameWork with
    memory := h'.memory.trans h.memory
    links := fun i => (h.links i).trans (h'.links i) }

theorem State.Orderly.refl (s : State) : s.Orderly s :=
  ⟨rfl, rfl, List.prefix_rfl, List.prefix_rfl, fun _ h => h, fun _ h => h, fun _ => .refl _, id, id, id, id⟩

theorem State.Orderly.trans (h : s.Orderly t) (h' : t.Orderly u) : s.Orderly u where
  memory := h'.memory.trans h.memory
  current := h'.current.trans h.current
  clearQueue := h.clearQueue.trans h'.clearQueue
  jobs := h.jobs.trans h'.jobs
  engine f hf := h'.engine f (h.engine f hf)
  free f hf := h.free f (h'.free f hf)
  links i := (h.links i).trans (h'.links i)
  clearer := h'.clearer ∘ h.clearer
  copier := h'.copier ∘ h.copier
  checker := h'.checker ∘ h.checker
  idle := h'.idle ∘ h.idle

theorem State.SameRecords.frame (h : s.SameRecords t) (f : FrameId) : t.frame f = s.frame f := by
  simp only [State.frame, h.frames]

theorem State.SameRecords.space (h : s.SameRecords t) (sp : SpaceId) : t.space sp = s.space sp := by
  simp only [State.space, h.spaces]

theorem State.SameRecords.entry (h : s.SameRecords t) (p : BackRef) : t.entry p = s.entry p := by
  simp only [State.entry, h.space]

theorem State.SameRecords.targets (h : s.SameRecords t) : t.jobs.map CopyJob.target = s.jobs.map CopyJob.target := by
  simpa [Function.comp_def, CopyJob.core] using congrArg (List.map fun c => c.2.2.2) h.jobs

theorem State.SameRecords.sources (h : s.SameRecords t) :
    t.jobs.filterMap CopyJob.moves? = s.jobs.filterMap CopyJob.moves? := by
  simpa [List.filterMap_map, Function.comp_def, CopyJob.core] using congrArg (List.filterMap fun c => c.2.1) h.jobs

theorem State.SameRecords.entries (h : s.SameRecords t) :
    t.jobs.filterMap CopyJob.entry? = s.jobs.filterMap CopyJob.entry? := by
  simpa [List.filterMap_map, Function.comp_def, CopyJob.core] using congrArg (List.filterMap fun c => c.1) h.jobs

theorem State.SameWork.jobs_nil (h : s.SameWork t) : t.jobs = [] ↔ s.jobs = [] := by
  rw [← List.map_eq_nil_iff (f := CopyJob.core), h.jobs, List.map_eq_nil_iff]

theorem Engine.frame?_eq_none (e : Engine) : e.frame? = none ↔ e = .idle := by
  cases e <;> simp [Engine.frame?]

theorem State.SameWork.idle_iff (h : s.SameWork t) : t.scrub.engine = .idle ↔ s.scrub.engine = .idle := by
  rw [← Engine.frame?_eq_none, h.engine, Engine.frame?_eq_none]

theorem State.SameWork.copier (h : s.SameWork t) (hs : s.CopierServed) : t.CopierServed := by
  unfold State.CopierServed
  rw [h.jobs_nil, h.current]
  exact hs.imp_right (Or.imp_right (h.waiting _ nofun))

theorem State.SameWork.checker (h : s.SameWork t) (hs : s.CheckerServed) : t.CheckerServed := by
  unfold State.CheckerServed
  rw [h.idle_iff, h.current]
  exact hs.imp_right (Or.imp_right (h.waiting _ nofun))

theorem State.SameWork.idle (h : s.SameWork t) (hs : s.EngineServed) : t.EngineServed := by
  intro ht
  obtain ⟨hq, hw⟩ := hs (h.idle_iff.1 ht)
  exact ⟨h.checkQueue hq, h.walkTimer ▸ hw⟩

/-- An operation that keeps the work of the blocks, the stored words and the clear queue, and makes no frame FREE. -/
theorem State.SameWork.orderly (h : s.SameWork t) (memory : t.memory = s.memory) (clearQueue : t.clearQueue = s.clearQueue)
    (free : ∀ f, (t.frame f).state = .free → (s.frame f).state = .free) (links : ∀ i, (s.link i).Quiet (t.link i)) :
    s.Orderly t where
  memory := memory
  current := h.current
  clearQueue := by rw [clearQueue]
  jobs := by rw [h.jobs]
  engine f hf := h.engine.trans hf
  free := free
  links := links
  clearer hs := by
    unfold State.ClearerServed Arbiter.clearing
    rw [clearQueue, h.current]
    exact hs.imp_right (Or.imp_right (h.waiting _ nofun))
  copier := h.copier
  checker := h.checker
  idle := h.idle

theorem State.Calm.orderly (h : s.Calm t) : s.Orderly t :=
  h.toSameWork.orderly h.memory h.clearQueue (fun f hf => h.frame f ▸ hf) h.links

end

/-! ### Calm operations -/

section

variable (s : State) (i j : LinkId)

/-- A change of a link alone. -/
theorem calm_onLink (c : Link → Link) (h : (s.link i).Quiet (c (s.link i))) : s.Calm (s.onLink i c) where
  frames := by simp
  clearQueue := by simp
  freeQueue := by simp
  spaces := by simp
  lowMark := by simp
  retired := by simp
  discretionary := by simp
  interval := by simp
  threshold := by simp
  jobs := by simp
  current := by simp
  waiting := by simp
  presented := by simp
  engine := by simp
  checkQueue := by simp
  walkTimer := by simp
  memory := by simp
  links k := by
    rw [link_onLink]
    split
    · next hk => exact hk ▸ h
    · exact .refl _

/-- A change of a link that keeps its segment and the messages awaiting intake. -/
theorem calm_onLink_of_eq (c : Link → Link) (h : (c (s.link i)).segment = (s.link i).segment)
    (h' : (c (s.link i)).awaiting = (s.link i).awaiting) : s.Calm (s.onLink i c) :=
  calm_onLink s i c (.of_eq h h')

/-- A change of waiting requests, of the supply state and of the model's own fields, which keeps what the invariants read
of the copy jobs and the frame the check engine works on. -/
theorem calm_blocks (low : Bool) (supply : SupplyState) (waiters : List Waiter) (jobs : List CopyJob) (engine : Engine)
    (queue wait : List FrameRequest) (index : Nat) (pending : List Instr)
    (hj : jobs.map CopyJob.core = s.jobs.map CopyJob.core) (he : engine.frame? = s.scrub.engine.frame?)
    (hq : s.scrub.checkQueue = [] → queue = []) :
    s.Calm { s with
      resetLow := low, supply := supply, waiters := waiters, jobs := jobs, freeIndex := index, pending := pending
      scrub := { s.scrub with engine := engine, checkQueue := queue, retireWait := wait } } where
  frames := rfl
  clearQueue := rfl
  freeQueue := rfl
  spaces := rfl
  lowMark := rfl
  retired := rfl
  discretionary := rfl
  interval := rfl
  threshold := rfl
  jobs := hj
  current := rfl
  waiting _ _ h := h
  presented _ h := h
  engine := he
  checkQueue := hq
  walkTimer := rfl
  memory := rfl
  links k := by cases k <;> exact .refl _

/-- A change of who waits for free frames, of the supply state and of the model's own fields. -/
theorem calm_fields (low : Bool) (supply : SupplyState) (waiters : List Waiter) (index : Nat) (pending : List Instr) :
    s.Calm { s with resetLow := low, supply := supply, waiters := waiters, freeIndex := index, pending := pending } :=
  calm_blocks s low supply waiters _ _ _ _ index pending rfl rfl id

/-- A change of the copy jobs that keeps what the invariants read of them. -/
theorem calm_jobs (jobs : List CopyJob) (h : jobs.map CopyJob.core = s.jobs.map CopyJob.core) :
    s.Calm { s with jobs := jobs } := calm_blocks s _ _ _ jobs _ _ _ _ _ h rfl id

/-- A waiting segment's access withdrawn. -/
theorem calm_withdraw : s.Calm (s.withdraw (.dataPath i)) where
  frames := rfl
  clearQueue := rfl
  freeQueue := rfl
  spaces := rfl
  lowMark := rfl
  retired := rfl
  discretionary := rfl
  interval := rfl
  threshold := rfl
  jobs := rfl
  current := rfl
  waiting c hc h := List.mem_filter.2 ⟨h, by simpa using hc i⟩
  presented _ h := List.mem_of_mem_filter h
  engine := rfl
  checkQueue := id
  walkTimer := rfl
  memory := rfl
  links k := by cases k <;> exact .refl _

/-- Calm operations one after another. -/
theorem calm_foldl {α : Type} (step : State → α → State) (l : List α) (h : ∀ (x : State) (a : α), x.Calm (step x a)) :
    s.Calm (l.foldl step s) :=
  foldl_keeps (fun x : State => s.Calm x) step l (fun x a _ hx => hx.trans (h x a)) s (.refl s)

/-! Notices and messages. -/

theorem calm_raiseOn (n : Notice) : s.Calm (s.raiseOn i n) := by
  refine calm_onLink_of_eq s i _ ?_ ?_ <;> split <;> rfl

theorem calm_raiseBoth (n : Notice) : s.Calm (s.raiseBoth n) :=
  (calm_raiseOn s .link0 n).trans (calm_raiseOn _ .link1 n)

theorem calm_enqueue (m : Outgoing) : s.Calm (s.enqueue i m) := calm_onLink_of_eq s i _ rfl rfl

theorem calm_reply (k : RequestKind) (tag : Byte) (p : List Byte) : s.Calm (s.reply i k tag p) := calm_enqueue s i _

theorem calm_reject (m : Message) (status : Status) : s.Calm (s.reject i m status) := calm_enqueue s i _

theorem calm_answer (k : DeferredKind) (tag : Byte) (p : List Byte) : s.Calm (s.answer i k tag p) :=
  (calm_onLink_of_eq s i _ rfl rfl).trans (calm_enqueue _ i _)

theorem calm_answerRetire (tag : Byte) (status : Status) (f : FrameId) : s.Calm (s.answerRetire i tag status f) :=
  calm_answer s i _ _ _

theorem calm_answerRequester (requester : Option (LinkId × Byte)) (status : Status) (f : FrameId) :
    s.Calm (s.answerRequester requester status f) := by
  unfold State.answerRequester
  split
  · exact .refl s
  · exact calm_answerRetire ..

theorem calm_answerCheckState (q : FrameRequest) : s.Calm (s.answerCheckState q) := calm_answer s _ _ _ _

theorem calm_answerCheckOk (tag : Byte) (f : FrameId) (es : List ErrorEvent) :
    s.Calm (s.answerCheckOk i tag f es) := calm_answer s _ _ _ _

theorem calm_answerWaitFree (tag : Byte) (status : Status) : s.Calm (s.answerWaitFree i tag status) :=
  calm_answer s _ _ _ _

/-! The supply state and the lists of waiting requests. -/

theorem calm_setSupply (st : SupplyState) : s.Calm (s.setSupply st) := by
  unfold State.setSupply
  split
  · exact .refl s
  · exact (calm_fields s _ st _ _ _).trans (calm_raiseBoth ..)

theorem calm_examineFall : s.Calm s.examineFall := calm_setSupply s _

theorem calm_examineRise : s.Calm s.examineRise := calm_setSupply s _

theorem calm_examineWaiters : s.Calm s.examineWaiters :=
  (calm_fields s _ _ _ _ _).trans (calm_foldl _ _ _ fun _ _ => calm_answerWaitFree ..)

theorem calm_answerRetireWait (f : FrameId) : s.Calm (s.answerRetireWait f) :=
  (calm_blocks s _ _ _ _ _ _ _ _ _ rfl rfl id).trans (calm_foldl _ _ _ fun _ _ => calm_answerRetire ..)

theorem calm_expireWaiter (tag : Byte) : s.Calm (s.expireWaiter i tag) := by
  unfold State.expireWaiter
  split
  · exact (calm_fields s _ _ _ _ _).trans (calm_answerWaitFree ..)
  · exact .refl s

/-! Slots and waiter sets. -/

theorem calm_setSlot (k : SlotRef) (slot : Slot) : s.Calm (s.setSlot k slot) := calm_onLink_of_eq s _ _ rfl rfl

theorem calm_leaveWaiters (k : SlotRef) : s.Calm (s.leaveWaiters k) :=
  calm_jobs s _ (by rw [List.map_map]; rfl)

theorem calm_joinWaiters (k : SlotRef) (picks : CopyJob → Bool) : s.Calm (s.joinWaiters k picks) := by
  refine calm_jobs s _ ?_
  rw [List.map_map]
  refine List.map_congr_left fun j _ => ?_
  dsimp only [Function.comp]
  split <;> rfl

theorem calm_slotReady (waiters : List SlotRef) : s.Calm (s.slotReady waiters) := by
  refine calm_foldl _ _ _ fun x i => ?_
  split
  · exact .refl x
  · exact calm_raiseOn ..

theorem calm_idleSlot (k : SlotRef) (last : Option LastOutcome) : s.Calm (s.idleSlot k last) :=
  (calm_leaveWaiters s k).trans (calm_setSlot ..)

theorem calm_segReply (k : SlotRef) (tag : Byte) (status : Status) (data : List Byte) :
    s.Calm (s.segReply k tag status data) := by
  unfold State.segReply
  split
  · exact .refl s
  · exact (calm_setSlot ..).trans (calm_reply ..)

theorem calm_haltReply (k : SlotRef) (tag : Byte) (cause : HaltCause) : s.Calm (s.haltReply k tag cause) := by
  unfold State.haltReply
  split
  · exact .refl s
  · exact (calm_setSlot ..).trans (calm_segReply ..)

/-- A link's segment taken from it. -/
theorem calm_dropSegment : s.Calm (s.onLink i fun l => { l with segment := none }) :=
  calm_onLink s i _ ⟨nofun, le_rfl⟩

theorem calm_withdrawSegment (k : SlotRef) (cause : HaltCause) : s.Calm (s.withdrawSegment k cause) := by
  unfold State.withdrawSegment
  split
  · exact .refl s
  · split
    · exact ((calm_withdraw s k.1).trans (calm_dropSegment ..)).trans (calm_segReply ..)
    · exact .refl s

theorem calm_haltSlot (k : SlotRef) (cause : HaltCause) : s.Calm (s.haltSlot k cause) := by
  unfold State.haltSlot
  split
  · exact .refl s
  · exact (calm_setSlot ..).trans (calm_withdrawSegment ..)

theorem calm_failWaiters (waiters : List SlotRef) : s.Calm (s.failWaiters waiters) :=
  (calm_foldl _ _ _ fun _ _ => calm_haltSlot ..).trans (calm_slotReady ..)

theorem calm_slotSpaceGone (sp : SpaceId) (k : SlotRef) : s.Calm (s.slotSpaceGone sp k) := by
  unfold State.slotSpaceGone
  split
  · exact .refl s
  · split
    · split
      · exact calm_setSlot ..
      · exact (calm_setSlot ..).trans (calm_haltSlot ..)
    · exact .refl s

theorem calm_expireSlot (k : SlotRef) : s.Calm (s.expireSlot k) := by
  unfold State.expireSlot
  split
  · exact .refl s
  · split
    · exact (calm_idleSlot ..).trans (calm_raiseOn ..)
    · exact .refl s

/-! Sessions. -/

theorem calm_wakeLink : s.Calm (s.wakeLink i) := by
  unfold State.wakeLink
  split
  · exact calm_onLink_of_eq s i _ rfl rfl
  · exact .refl s

theorem calm_goDormant : s.Calm (s.goDormant i) := by
  unfold State.goDormant
  split
  · exact calm_onLink_of_eq s i _ rfl rfl
  · exact .refl s

theorem calm_acceptDeferred (k : RequestKind) (tag : Byte) : s.Calm (s.acceptDeferred i k tag) := by
  unfold State.acceptDeferred
  split
  · exact .refl s
  · exact calm_onLink_of_eq s i _ rfl rfl

@[simp] theorem core_dropLink (j : CopyJob) : (j.dropLink i).core = j.core := by
  obtain ⟨_ | ⟨_ | ⟨r, tag⟩⟩, source, target, waiters, phase⟩ := j
  · rfl
  · rfl
  · by_cases h : r = i <;> simp [CopyJob.dropLink, CopyJob.core, CopyJob.entry?, CopyJob.moves?, h]

@[simp] theorem frame?_dropLink (e : Engine) : (e.dropLink i).frame? = e.frame? := by
  rcases e with _ | ⟨f, _ | ⟨j, tag⟩ | _⟩
  · rfl
  · rfl
  · by_cases h : j = i <;> simp [Engine.dropLink, Engine.frame?, h]
  · rfl

theorem calm_linkReset (rxdLow : Bool) : s.Calm (s.linkReset i rxdLow) := by
  have hb := calm_blocks s s.resetLow s.supply (s.waiters.filter fun w => w.link ≠ i) (s.jobs.map fun j => j.dropLink i)
    (s.scrub.engine.dropLink i) (dropRequests i s.scrub.checkQueue) (dropRequests i s.scrub.retireWait) s.freeIndex
    s.pending (by simp [Function.comp_def]) (by simp) fun h => by rw [h]; rfl
  exact (hb.trans (calm_withdraw _ i)).trans
    (calm_onLink _ i (fun _ => Link.initial (s.link i).rate rxdLow) ⟨nofun, Nat.zero_le _⟩)

end

end Sys2Proof.Machine
end

section
/-! SUPPORT. The memory side's operations are orderly: records of frames and pages, releases and retirements, copy jobs, and
the check engine's next work. -/

namespace Sys2Proof.Machine

variable (s : State) (f : FrameId) (p : BackRef)

/-! ### Records -/

theorem sameWork_setFrame (r : FrameRecord) : s.SameWork (s.setFrame f r) :=
  ⟨rfl, rfl, fun _ _ h => h, fun _ h => h, rfl, id, rfl⟩

theorem sameWork_setSpace (sp : SpaceId) (r : Option SpaceRecord) : s.SameWork (s.setSpace sp r) :=
  ⟨rfl, rfl, fun _ _ h => h, fun _ h => h, rfl, id, rfl⟩

/-- A frame's record replaced, the frame not made FREE. -/
theorem orderly_setFrame (r : FrameRecord) (h : r.state = .free → (s.frame f).state = .free) :
    s.Orderly (s.setFrame f r) := by
  refine (sameWork_setFrame s f r).orderly rfl rfl (fun g hg => ?_) fun i => by simpa using .refl _
  rw [frame_setFrame] at hg
  split at hg
  · next hgf => exact hgf ▸ h hg
  · exact hg

theorem orderly_setSpace (sp : SpaceId) (r : Option SpaceRecord) : s.Orderly (s.setSpace sp r) :=
  (sameWork_setSpace s sp r).orderly rfl rfl (fun _ h => h) fun i => by simpa using .refl _

theorem orderly_setEntry (e : Option MapEntry) : s.Orderly (s.setEntry p e) := by
  unfold State.setEntry
  split
  · exact .refl s
  · exact orderly_setSpace ..

theorem orderly_foldl {α : Type} (step : State → α → State) (l : List α)
    (h : ∀ (x : State) (a : α), x.Orderly (step x a)) : s.Orderly (l.foldl step s) :=
  foldl_keeps (fun x : State => s.Orderly x) step l (fun x a _ hx => hx.trans (h x a)) s (.refl s)

theorem orderly_freeQueue (queue : List FrameId) : s.Orderly { s with freeQueue := queue } :=
  State.SameWork.orderly (t := { s with freeQueue := queue }) ⟨rfl, rfl, fun _ _ h => h, fun _ h => h, rfl, id, rfl⟩ rfl rfl
    (fun _ h => h) fun i => by cases i <;> exact .refl _

/-- A change of the Scrubber that leaves its engine and its due work. -/
theorem orderly_scrub (c : Scrubber) (he : c.engine = s.scrub.engine)
    (hq : s.scrub.checkQueue = [] → c.checkQueue = []) (hw : c.walkTimer = .due → s.scrub.walkTimer = .due) :
    s.Orderly { s with scrub := c } where
  memory := rfl
  current := rfl
  clearQueue := List.prefix_rfl
  jobs := List.prefix_rfl
  engine _ h := he ▸ h
  free _ h := h
  links i := by cases i <;> exact .refl _
  clearer := id
  copier := id
  checker := fun h => by unfold State.CheckerServed; dsimp only; rw [he]; exact h
  idle h hi := by
    obtain ⟨h1, h2⟩ := h (he ▸ hi)
    exact ⟨hq h1, fun hd => h2 (hw hd)⟩

theorem orderly_clearCopyPending : s.Orderly (s.clearCopyPending p) := by
  unfold State.clearCopyPending
  split
  · exact .refl s
  · exact orderly_setEntry ..

theorem orderly_retarget : s.Orderly (s.retarget f p) := by
  unfold State.retarget
  split
  · exact .refl s
  · exact orderly_setEntry ..

theorem orderly_clearMoving : s.Orderly (s.clearMoving f) := orderly_setFrame s f _ id

theorem orderly_commonEffect (finder : Finder) (e : ErrorEvent) : s.Orderly (s.commonEffect finder e) := by
  unfold State.commonEffect
  split
  · exact orderly_setFrame s _ _ id
  · have hset := orderly_setFrame s e.frame ((s.frame e.frame).afterUncorrectable e.word finder) id
    dsimp only
    split
    · exact hset
    · exact hset.trans (calm_raiseBoth ..).orderly

theorem orderly_commonEffects (finder : Finder) (es : List ErrorEvent) : s.Orderly (s.commonEffects finder es) :=
  orderly_foldl s _ es fun x e => orderly_commonEffect x finder e

/-! ### Releases and retirements -/

theorem orderly_retireFrame (d : Bool) : s.Orderly (s.retireFrame f d) := by
  refine ((orderly_scrub s _ ?_ ?_ ?_).trans (orderly_setFrame _ f _ ?_)).trans (calm_raiseBoth ..).orderly
  exacts [rfl, id, id, nofun]

@[simp] theorem kickClearer_memory : s.kickClearer.memory = s.memory := by unfold State.kickClearer; split <;> simp
@[simp] theorem kickClearer_current : s.kickClearer.arbiter.current = s.arbiter.current := by
  unfold State.kickClearer; split <;> simp
@[simp] theorem kickClearer_frames : s.kickClearer.frames = s.frames := by unfold State.kickClearer; split <;> simp
@[simp] theorem kickClearer_clearQueue : s.kickClearer.clearQueue = s.clearQueue := by
  unfold State.kickClearer; split <;> simp
@[simp] theorem kickClearer_freeQueue : s.kickClearer.freeQueue = s.freeQueue := by
  unfold State.kickClearer; split <;> simp
@[simp] theorem kickClearer_lowMark : s.kickClearer.lowMark = s.lowMark := by unfold State.kickClearer; split <;> simp
@[simp] theorem kickClearer_spaces : s.kickClearer.spaces = s.spaces := by unfold State.kickClearer; split <;> simp
@[simp] theorem kickClearer_jobs : s.kickClearer.jobs = s.jobs := by unfold State.kickClearer; split <;> simp
@[simp] theorem kickClearer_scrub : s.kickClearer.scrub = s.scrub := by unfold State.kickClearer; split <;> simp
@[simp] theorem link_kickClearer (i : LinkId) : s.kickClearer.link i = s.link i := by
  unfold State.kickClearer; split <;> simp
@[simp] theorem frame_kickClearer : s.kickClearer.frame f = s.frame f := by unfold State.kickClearer; split <;> simp
@[simp] theorem entry_kickClearer : s.kickClearer.entry p = s.entry p := by unfold State.kickClearer; split <;> simp
@[simp] theorem space_kickClearer (sp : SpaceId) : s.kickClearer.space sp = s.space sp := by
  unfold State.kickClearer; split <;> simp

theorem mem_kickClearer_waiting (c : Client) (h : c ∈ s.arbiter.waiting) : c ∈ s.kickClearer.arbiter.waiting := by
  unfold State.kickClearer; split
  · exact h
  · exact (mem_present_waiting s .clearer c).2 (Or.inl h)

/-- The Clearer kicked has a clear outstanding if there is one to make (R26). -/
theorem kickClearer_served : s.kickClearer.ClearerServed := by
  by_cases h : s.clearQueue = [] ∨ s.arbiter.clearing = true
  · have hk : s.kickClearer = s := by unfold State.kickClearer; exact if_pos h
    rw [hk]
    exact h.imp_right Or.inl
  · have hk : s.kickClearer = s.present .clearer := by unfold State.kickClearer; exact if_neg h
    exact Or.inr (Or.inr (by rw [hk]; simp))

theorem kickClearer_copier (h : s.CopierServed) : s.kickClearer.CopierServed := by
  unfold State.CopierServed
  rw [kickClearer_jobs, kickClearer_current]
  exact h.imp_right (Or.imp_right (mem_kickClearer_waiting s _))

theorem kickClearer_checker (h : s.CheckerServed) : s.kickClearer.CheckerServed := by
  unfold State.CheckerServed
  rw [kickClearer_scrub, kickClearer_current]
  exact h.imp_right (Or.imp_right (mem_kickClearer_waiting s _))

/-- A frame that joins the clear queue, the Clearer being kicked (R25, R26). -/
theorem orderly_joinClearQueue (r : FrameRecord) (h : r.state = .clearing) :
    s.Orderly (({ s with clearQueue := s.clearQueue ++ [f] } : State).setFrame f r).kickClearer where
  memory := by simp
  current := by simp
  clearQueue := by simp
  jobs := by simp
  engine g hg := by simpa using hg
  free g hg := by
    rw [frame_kickClearer, frame_setFrame] at hg
    split at hg
    · rw [h] at hg; cases hg
    · exact hg
  links i := by
    rw [link_kickClearer, link_setFrame]
    cases i <;> exact .refl _
  clearer _ := kickClearer_served _
  copier hs := kickClearer_copier _ hs
  checker hs := kickClearer_checker _ hs
  idle hs := by unfold State.EngineServed; rw [kickClearer_scrub]; exact hs

theorem orderly_release : s.Orderly (s.release f) := by
  unfold State.release
  split
  · exact orderly_retireFrame ..
  · exact orderly_joinClearQueue s f _ rfl

theorem orderly_retireFree (d : Bool) : s.Orderly (s.retireFree f d) :=
  ((orderly_freeQueue s _).trans (calm_examineFall _).orderly).trans (orderly_retireFrame ..)

theorem orderly_resolveFree : s.Orderly (s.resolveFree f) := by
  unfold State.resolveFree
  dsimp only
  split
  · exact orderly_retireFree ..
  · split
    · split
      · exact orderly_retireFree ..
      · exact orderly_setFrame s f _ id
    · exact .refl s

theorem orderly_deferredRelease : s.Orderly (s.deferredRelease f) := by
  unfold State.deferredRelease
  split
  · exact orderly_release ..
  · exact .refl s

theorem orderly_detach : s.Orderly (s.detach p).1 := by
  unfold State.detach
  split
  · exact .refl s
  · next e he =>
    have hset := (orderly_setEntry s p none).trans (orderly_setFrame _ e.frame
      { s.frame e.frame with state := .held ((s.frame e.frame).state.refs.erase p) } nofun)
    dsimp only
    split
    · dsimp only
      split
      · exact hset
      · exact hset.trans (orderly_release ..)
    · exact hset

/-- The pages of a list detached, without the count. -/
theorem detachAll_eq_foldl (ps : List BackRef) : (s.detachAll ps).1 = ps.foldl (fun x p => (x.detach p).1) s := by
  unfold State.detachAll
  generalize 0 = n
  induction ps generalizing s n with
  | nil => rfl
  | cons p rest ih => exact ih _ _

theorem orderly_detachAll (ps : List BackRef) : s.Orderly (s.detachAll ps).1 := by
  rw [detachAll_eq_foldl]
  exact orderly_foldl s _ ps orderly_detach

/-! ### Pages made present -/

theorem orderly_mapPage : s.Orderly (s.mapPage p f) := by
  refine (orderly_setFrame s f _ ?_).trans (orderly_setEntry ..)
  nofun

theorem orderly_clonePage (q : BackRef) : s.Orderly (s.clonePage p q) := by
  unfold State.clonePage
  split
  · exact .refl s
  · refine (orderly_setFrame s _ _ ?_).trans (orderly_setEntry ..)
    nofun

/-! ### Copy jobs -/

/-- Everything the making of a job does (R32, R76): nothing on an empty free queue, else the head frame becomes TARGET and
the job joins the queue, its copy presented if it is the only one. -/
theorem makeJob_cases (kind : JobKind) (source : FrameId) (waiters : List SlotRef) :
    (s.freeQueue = [] ∧ s.makeJob kind source waiters = s) ∨
    ∃ target rest phase, s.freeQueue = target :: rest ∧
      let made := State.setFrame
        { s with freeQueue := rest, jobs := s.jobs ++ [CopyJob.mk kind source target waiters phase] } target
        { s.frame target with state := .target }
      s.makeJob kind source waiters = (if s.jobs = [] then made.present .copyEngine else made).examineFall := by
  unfold State.makeJob
  cases hq : s.freeQueue with
  | nil => exact Or.inl ⟨rfl, rfl⟩
  | cons target rest => exact Or.inr ⟨target, rest, _, rfl, rfl⟩

theorem orderly_present (c : Client) : s.Orderly (s.present c) where
  memory := by simp
  current := by simp
  clearQueue := by simp
  jobs := by simp
  engine g hg := by simpa using hg
  free g hg := by simpa using hg
  links i := by rw [link_present]; exact .refl _
  clearer hs := by
    unfold State.ClearerServed Arbiter.clearing
    rw [present_current, present_clearQueue, mem_present_waiting]
    exact hs.imp_right (Or.imp_right Or.inl)
  copier hs := by
    unfold State.CopierServed
    rw [present_current, present_jobs, mem_present_waiting]
    exact hs.imp_right (Or.imp_right Or.inl)
  checker hs := by
    unfold State.CheckerServed
    rw [present_current, present_scrub, mem_present_waiting]
    exact hs.imp_right (Or.imp_right Or.inl)
  idle hs := by unfold State.EngineServed; rw [present_scrub]; exact hs

/-- A copy job that joins the queue, its target's record given: alone there, its copy is presented (R76). -/
theorem orderly_joinJobs (queue : List FrameId) (j : CopyJob) (r : FrameRecord) (h : r.state ≠ .free) :
    let made := ({ s with freeQueue := queue, jobs := s.jobs ++ [j] } : State).setFrame f r
    s.Orderly (if s.jobs = [] then made.present .copyEngine else made) := by
  intro made
  have free : ∀ g, (made.frame g).state = .free → (s.frame g).state = .free := by
    intro g hg
    rw [frame_setFrame] at hg
    split at hg
    · exact absurd hg h
    · exact hg
  have links : ∀ i, (s.link i).Quiet (made.link i) := by
    intro i
    rw [link_setFrame]
    cases i <;> exact .refl _
  have hp := orderly_present made .copyEngine
  split
  · exact ⟨hp.memory, hp.current, hp.clearQueue, .trans ⟨[j.core], by simp [made]⟩ hp.jobs, hp.engine,
      fun g hg => free g (hp.free g hg), fun i => (links i).trans (hp.links i), hp.clearer,
      fun _ => Or.inr (Or.inr (by simp)), hp.checker, hp.idle⟩
  · next hj =>
    exact ⟨rfl, rfl, List.prefix_rfl, ⟨[j.core], by simp [made]⟩, fun _ h => h, free, links, id,
      fun hs => Or.inr (hs.resolve_left hj), id, id⟩

theorem orderly_makeJob (kind : JobKind) (source : FrameId) (waiters : List SlotRef) :
    s.Orderly (s.makeJob kind source waiters) := by
  rcases makeJob_cases s kind source waiters with ⟨_, h⟩ | ⟨target, rest, phase, _, h⟩ <;> rw [h]
  · exact .refl s
  · refine (orderly_joinJobs s target rest _ _ ?_).trans (calm_examineFall _).orderly
    nofun

theorem orderly_makeMove (requester : Option (LinkId × Byte)) : s.Orderly (s.makeMove f requester) :=
  (orderly_setFrame s f { s.frame f with moving := true } id).trans (orderly_makeJob ..)

theorem orderly_makePrivate (e : MapEntry) (k : SlotRef) : s.Orderly (s.makePrivate p e k) :=
  (orderly_setEntry ..).trans (orderly_makeJob ..)

/-! ### The check engine -/

theorem orderly_advanceCursor : s.Orderly s.advanceCursor := by
  unfold State.advanceCursor
  split
  · refine (orderly_scrub s _ ?_ ?_ ?_).trans (calm_raiseBoth ..).orderly
    exacts [rfl, id, id]
  · exact orderly_scrub s _ rfl id id

@[simp] theorem advanceCursor_engine : s.advanceCursor.scrub.engine = s.scrub.engine := by
  unfold State.advanceCursor; split <;> simp

@[simp] theorem advanceCursor_checkQueue : s.advanceCursor.scrub.checkQueue = s.scrub.checkQueue := by
  unfold State.advanceCursor; split <;> simp

@[simp] theorem advanceCursor_walkTimer : s.advanceCursor.scrub.walkTimer = s.scrub.walkTimer := by
  unfold State.advanceCursor; split <;> simp

/-- A check begun by an idle engine is presented (R94). -/
theorem orderly_startCheck (work : CheckWork) (h : s.scrub.engine = .idle) : s.Orderly (s.startCheck f work) := by
  have hp := orderly_present { s with scrub := { s.scrub with engine := .busy f work } } .scrubber
  exact ⟨hp.memory, hp.current, hp.clearQueue, hp.jobs, (fun g hg => by rw [h] at hg; cases hg), hp.free,
    fun i => .trans (by cases i <;> exact .refl _) (hp.links i), hp.clearer, hp.copier,
    fun _ => Or.inr (Or.inr (by simp [State.startCheck])), fun _ hi => by simp [State.startCheck] at hi⟩

@[simp] theorem startCheck_engine (work : CheckWork) : (s.startCheck f work).scrub.engine = .busy f work := by
  simp [State.startCheck]

theorem restartedTimer_ne_due (c : Scrubber) : c.restartedTimer ≠ .due := by
  unfold Scrubber.restartedTimer; split <;> nofun

theorem orderly_walkVisit (h : s.scrub.engine = .idle) : s.Orderly s.walkVisit := by
  unfold State.walkVisit
  dsimp only
  split
  · refine ((orderly_scrub s _ ?_ ?_ ?_).trans (orderly_startCheck _ _ .walk ?_)).trans (orderly_advanceCursor _)
    exacts [rfl, id, nofun, h]
  · refine (orderly_scrub s _ ?_ ?_ ?_).trans (orderly_advanceCursor _)
    exacts [rfl, id, fun hd => absurd hd (restartedTimer_ne_due _)]

/-- After a walk visit the engine is busy or no visit is due (R96). -/
theorem walkVisit_served (h : s.scrub.checkQueue = []) : s.walkVisit.EngineServed := by
  unfold State.walkVisit State.EngineServed
  dsimp only
  split
  · intro hi; simp at hi
  · intro _; simp [h, restartedTimer_ne_due]

theorem orderly_nextWork (fuel : Nat) : s.Orderly (s.nextWork fuel) := by
  induction fuel generalizing s with
  | zero => exact .refl s
  | succ n ih =>
    unfold State.nextWork
    split
    · exact .refl s
    · next hi =>
      have hi : s.scrub.engine = .idle := not_not.1 hi
      split
      · next q rest hq =>
        split
        · exact orderly_startCheck s _ _ hi
        · refine ((orderly_scrub s _ ?_ ?_ ?_).trans (calm_answerCheckState _ q).orderly).trans (ih _)
          exacts [rfl, fun h => absurd (hq.symm.trans h) (List.cons_ne_nil _ _), id]
      · split
        · exact orderly_walkVisit s hi
        · exact .refl s

theorem orderly_takeWork : s.Orderly s.takeWork := orderly_nextWork s _

/-- The next work taken with enough fuel: the engine is busy, or has no work to take (R94). -/
theorem nextWork_served (fuel : Nat) (h : s.scrub.checkQueue.length < fuel) : (s.nextWork fuel).EngineServed := by
  induction fuel generalizing s with
  | zero => omega
  | succ n ih =>
    unfold State.nextWork
    split
    · next hi => exact fun h => absurd h hi
    · split
      · next q rest hq =>
        split
        · intro hi; simp at hi
        · refine ih _ ?_
          rw [hq] at h
          simpa [State.answerCheckState, State.answer] using h
      · next hq =>
        split
        · exact walkVisit_served s hq
        · next hw => exact fun _ => ⟨hq, hw⟩

theorem takeWork_served : s.takeWork.EngineServed := nextWork_served s _ (Nat.lt_succ_self _)

theorem orderly_consequence : s.Orderly (s.consequence f) := by
  unfold State.consequence
  dsimp only
  split
  · exact orderly_resolveFree ..
  · split
    · exact .refl s
    · split
      · split
        · exact orderly_makeMove ..
        · exact .refl s
      · exact orderly_setFrame s f _ id
  · exact orderly_setFrame s f _ id
  · exact .refl s
  · exact .refl s

end Sys2Proof.Machine
end

section
/-! SUPPORT. What a request can do: every request's taking is a chain of the effects below (`State.Effect`), and a segment's
grant is one after its access to the stored words. The invariants of the part are proved for each effect once. -/

namespace Sys2Proof.Machine

/-! ### The effects of a request -/

/-- A page that a space has room for: the space is LIVE and the page lies below its size (R46). -/
def State.Room (s : State) (p : BackRef) : Prop := ∃ r, s.space p.1 = some r ∧ p.2.val < r.size

/-- One effect of a request or of a segment's grant on the part. -/
inductive State.Effect : State → State → Prop
  /-- Links, waiting requests and the check engine's next work. -/
  | records {s t} (hr : s.SameRecords t) (ho : s.Orderly t) : Effect s t
  /-- CONFIG of the low mark. -/
  | lowMark (s v) (h : v ≤ 4095) : Effect s { s with lowMark := v }
  /-- CONFIG of the scrub interval or of the retire threshold. -/
  | scrub (s : State) (interval threshold timer) (hi : interval = s.scrub.interval ∨ interval ≤ 1000)
      (ht : threshold = s.scrub.threshold ∨ 1 ≤ threshold ∧ threshold ≤ 15)
      (hw : timer = .due → s.scrub.walkTimer = .due) :
      Effect s { s with scrub := { s.scrub with interval := interval, threshold := threshold, walkTimer := timer } }
  /-- A space's record made, dropped or changed, its pages staying as they are. -/
  | space (s sp r) (hp : ∀ q, (s.setSpace sp r).entry q = s.entry q)
      (hs : ∀ new, r = some new → (∃ old, s.space sp = some old ∧ old.size = new.size) ∨
        1 ≤ new.size ∧ new.size ≤ 256 ∧ ∀ p, s.entry (sp, p) = none) : Effect s (s.setSpace sp r)
  /-- A page's flags changed, but for copy-pending. -/
  | entry (s p e e') (h : s.entry p = some e) (hf : e'.frame = e.frame) (hc : e'.copyPending = e.copyPending) :
      Effect s (s.setEntry p (some e'))
  /-- A page detached. -/
  | detached (s p) : Effect s (s.detach p).1
  /-- An absent page made present on the head of the free queue. -/
  | mapped (s p f rest) (hq : s.freeQueue = f :: rest) (hp : s.entry p = none) (hr : s.Room p) :
      Effect s (State.mapPage { s with freeQueue := rest } p f)
  /-- An absent page made present on the frame of a present one. -/
  | cloned (s p q e) (hp : s.entry p = some e) (hq : s.entry q = none) (hr : s.Room q)
      (hl : (s.frame e.frame).state.refs.length < 64) : Effect s (s.clonePage p q)
  /-- A FREE frame retired. -/
  | retired (s f discretionary) (hf : (s.frame f).state = .free)
      (hd : discretionary = true → s.scrub.discretionary < retireLimit) : Effect s (s.retireFree f discretionary)
  /-- The retire-pending flag of a frame changed. -/
  | flagged (s f flag) : Effect s (s.setFrame f { s.frame f with retirePending := flag })
  /-- A MOVE job made. -/
  | moved (s f requester) (h : s.moveRefusal? f = none) : Effect s (s.makeMove f requester)
  /-- A PRIVATE job made. -/
  | copied (s p e k) (h : s.entry p = some e) (hc : e.copyPending = false) (hj : s.jobs.length < jobLimit)
      (hq : s.freeQueue ≠ []) : Effect s (s.makePrivate p e k)
  /-- A storage error met in a frame that a page names. -/
  | error (s finder e) (h : ∃ p en, s.entry p = some en ∧ en.frame = e.frame) : Effect s (s.commonEffect finder e)

/-- A chain of effects. -/
abbrev State.Effects : State → State → Prop := Relation.ReflTransGen State.Effect

variable {s t u : State}

theorem State.Calm.effects (h : s.Calm t) : s.Effects t := .single (.records h.toSameRecords h.orderly)

theorem State.Effects.calm (h : s.Effects t) (h' : t.Calm u) : s.Effects u := h.trans h'.effects

/-- Effects one after another. -/
theorem effects_foldl {α : Type} (step : State → α → State) (l : List α)
    (h : ∀ (x : State) (a : α), x.Effects (step x a)) (s : State) : s.Effects (l.foldl step s) :=
  foldl_keeps (fun x : State => s.Effects x) step l (fun x a _ hx => hx.trans (h x a)) s .refl

/-! ### Pages and ranges -/

theorem mem_pagesFrom (sp : SpaceId) (first count : Nat) (p : BackRef) :
    p ∈ pagesFrom sp first count ↔ p.1 = sp ∧ first ≤ p.2.val ∧ p.2.val < first + count := by
  obtain ⟨tp, n⟩ := p
  simp only [pagesFrom, page?, List.mem_filterMap, List.mem_range, Option.map_eq_some_iff, Option.dite_none_right_eq_some,
    Option.some.injEq, Prod.mk.injEq]
  constructor
  · rintro ⟨k, hk, m, ⟨_, rfl⟩, rfl, rfl⟩
    exact ⟨rfl, by simp, by simpa using hk⟩
  · rintro ⟨rfl, h1, h2⟩
    exact ⟨n.val - first, by omega, n, ⟨by have := n.isLt; omega, Fin.ext (by simp; omega)⟩, rfl, rfl⟩

theorem mem_rangePages (sp : SpaceId) (first count : Nat) (p : BackRef) :
    p ∈ rangePages sp first count ↔ p.1 = sp ∧ first ≤ p.2.val ∧ p.2.val < first + count := by
  obtain ⟨tp, n⟩ := p
  simp only [rangePages, List.mem_map, List.mem_filter, List.mem_finRange, true_and, decide_eq_true_eq, Prod.mk.injEq]
  constructor
  · rintro ⟨m, h, rfl, rfl⟩; exact ⟨rfl, h⟩
  · rintro ⟨rfl, h⟩; exact ⟨n, h, rfl, rfl⟩

theorem rangePages_ascend (sp : SpaceId) (first count : Nat) :
    (rangePages sp first count).Pairwise fun a b => a.2 < b.2 := by
  unfold rangePages
  rw [List.pairwise_map]
  exact (List.pairwise_lt_finRange 256).filter _

theorem pagesFrom_ascend (sp : SpaceId) (first count : Nat) :
    (pagesFrom sp first count).Pairwise fun a b => a.2 < b.2 := by
  unfold pagesFrom
  refine List.Pairwise.filterMap _ ?_ List.pairwise_lt_range
  intro a b hab p hp q hq
  simp only [page?, Option.map_eq_some_iff, Option.dite_none_right_eq_some, Option.some.injEq] at hp hq
  obtain ⟨_, ⟨_, rfl⟩, rfl⟩ := hp
  obtain ⟨_, ⟨_, rfl⟩, rfl⟩ := hq
  exact Fin.lt_def.2 (by simpa using hab)

/-- The pages of a range, written in two ways. -/
theorem pagesFrom_eq (sp : SpaceId) (first count : Nat) : pagesFrom sp first count = rangePages sp first count := by
  have : Std.Irrefl fun a b : BackRef => a.2 < b.2 := ⟨fun a => lt_irrefl _⟩
  have : Std.Antisymm fun a b : BackRef => a.2 < b.2 := ⟨fun a b h h' => absurd (h.trans h') (lt_irrefl _)⟩
  exact List.Pairwise.eq_of_mem_iff (pagesFrom_ascend sp first count) (rangePages_ascend sp first count)
    fun p => by rw [mem_pagesFrom, mem_rangePages]

theorem rangePages_nodup (sp : SpaceId) (first count : Nat) : (rangePages sp first count).Nodup :=
  (rangePages_ascend sp first count).imp fun h e => absurd (e ▸ h) (lt_irrefl _)

/-! ### What setting an entry leaves of the spaces -/

theorem space_setEntry (s : State) (p : BackRef) (e : Option MapEntry) (sp : SpaceId) :
    (s.setEntry p e).space sp = (s.space sp).map fun r =>
      if sp = p.1 then { r with pages := r.pages.set p.2.val e p.2.isLt } else r := by
  unfold State.setEntry
  cases hs : s.space p.1 with
  | none =>
    by_cases h : sp = p.1
    · subst h; simp [hs]
    · simp [h]
  | some r =>
    by_cases h : sp = p.1
    · subst h; simp [hs]
    · simp [h]

@[simp] theorem room_setEntry (s : State) (p q : BackRef) (e : Option MapEntry) :
    (s.setEntry p e).Room q ↔ s.Room q := by
  unfold State.Room
  rw [space_setEntry]
  cases s.space q.1 with
  | none => simp
  | some r => by_cases h : q.1 = p.1 <;> simp [h]

@[simp] theorem room_setFrame (s : State) (f : FrameId) (r : FrameRecord) (q : BackRef) :
    (s.setFrame f r).Room q ↔ s.Room q := Iff.rfl

theorem entry_setEntry_of_some {s : State} {p : BackRef} {e : MapEntry} (h : s.entry p = some e) (e' : Option MapEntry)
    (q : BackRef) : (s.setEntry p e').entry q = if q = p then e' else s.entry q := by
  split
  · next hq => rw [hq]; exact entry_setEntry_same s p e' (space_isSome_of_entry s p (by simp [h]))
  · next hq => exact entry_setEntry_other s p q e' hq

theorem entry_setEntry_of_room {s : State} {p : BackRef} (h : s.Room p) (e' : Option MapEntry) (q : BackRef) :
    (s.setEntry p e').entry q = if q = p then e' else s.entry q := by
  split
  · next hq =>
    obtain ⟨r, hr, _⟩ := h
    rw [hq]; exact entry_setEntry_same s p e' (by simp [hr])
  · next hq => exact entry_setEntry_other s p q e' hq

@[simp] theorem entry_retireFrame (s : State) (f : FrameId) (d : Bool) (p : BackRef) :
    (s.retireFrame f d).entry p = s.entry p := by
  unfold State.retireFrame
  dsimp only
  rw [entry_raiseBoth, entry_setFrame]
  rfl

@[simp] theorem entry_release (s : State) (f : FrameId) (p : BackRef) : (s.release f).entry p = s.entry p := by
  unfold State.release
  split
  · exact entry_retireFrame ..
  · rw [entry_kickClearer, entry_setFrame]; rfl

/-- A detach makes its page absent and leaves every other entry (R53). -/
theorem entry_detach (s : State) (p q : BackRef) :
    (s.detach p).1.entry q = if q = p then none else s.entry q := by
  unfold State.detach
  split
  · next hp =>
    split
    · next hq => rw [hq, hp]
    · rfl
  · next e he =>
    rw [← entry_setEntry_of_some he]
    dsimp only
    split
    · dsimp only
      split <;> simp
    · simp

theorem entry_detachAll (s : State) (ps : List BackRef) (q : BackRef) :
    (s.detachAll ps).1.entry q = if q ∈ ps then none else s.entry q := by
  rw [detachAll_eq_foldl]
  induction ps generalizing s with
  | nil => simp
  | cons p rest ih =>
    rw [List.foldl_cons, ih, entry_detach]
    by_cases h1 : q ∈ rest <;> by_cases h2 : q = p <;> simp [h1, h2]

/-! ### Requests for spaces and pages -/

theorem effects_detachAll (s : State) (ps : List BackRef) : s.Effects (s.detachAll ps).1 := by
  rw [detachAll_eq_foldl]
  exact effects_foldl _ ps (fun x p => .single (.detached x p)) s

/-- A change of pages' flags that keeps the frames they name and copy-pending. -/
theorem effects_changeEntries (change : MapEntry → MapEntry) (hf : ∀ e, (change e).frame = e.frame)
    (hc : ∀ e, (change e).copyPending = e.copyPending) (pages : List BackRef) (s : State) :
    s.Effects (pages.foldl (State.changeEntry change) s) := by
  refine effects_foldl _ pages (fun x p => ?_) s
  unfold State.changeEntry
  split
  · exact .refl
  · next e he => exact .single (.entry x p e _ he (hf e) (hc e))

theorem findSpace_ok {s : State} {i : LinkId} {id : Byte} {need : Need} {sp : SpaceId} {r : SpaceRecord}
    (h : s.findSpace i id need = .ok (sp, r)) : s.space sp = some r := by
  unfold State.findSpace at h
  split at h
  · cases h
  · split at h
    · cases h
    · next hr =>
      split at h
      · cases h; exact hr
      · cases h

/-- The range of a mapping request names pages of a LIVE space below its size (3.5). -/
theorem findRange_room {s : State} {i : LinkId} {id : Byte} {need : Need} {first count : Nat} {pages : List BackRef}
    (h : s.findRange i id need first count = .ok pages) : pages.Nodup ∧ ∀ p ∈ pages, s.Room p := by
  unfold State.findRange at h
  split at h
  · cases h
  · next sp r hr =>
    split at h
    · next hok =>
      cases h
      simp only [SpaceRecord.rangeOk, decide_eq_true_eq] at hok
      refine ⟨pagesFrom_eq sp first count ▸ rangePages_nodup sp first count, fun p hp => ?_⟩
      obtain ⟨rfl, _, hlt⟩ := (mem_pagesFrom ..).1 hp
      exact ⟨r, findSpace_ok hr, by omega⟩
    · cases h

theorem effects_spaceCreate (s : State) (i : LinkId) (tag : Byte) (size : Nat) :
    s.Effects (serveSpaceCreate i tag size s) := by
  unfold serveSpaceCreate
  dsimp only
  split
  · exact (calm_reply ..).effects
  · next hsize =>
    split
    · exact (calm_reply ..).effects
    · next sp hsp =>
      refine State.Effects.calm (.single (.space s sp _ ?_ ?_)) (calm_reply ..)
      all_goals
        have hnone : s.space sp = none := by simpa using List.find?_some hsp
      · intro q
        unfold State.entry
        rw [space_setSpace]
        split
        · next h => simp [h, hnone, Vector.get_eq_getElem]
        · rfl
      · rintro new ⟨⟩
        push Not at hsize
        exact Or.inr ⟨Nat.pos_of_ne_zero hsize.1, hsize.2, fun p => by simp [State.entry, hnone]⟩

theorem mem_presentPages (s : State) (sp : SpaceId) (p : PageId) (h : (s.entry (sp, p)).isSome = true) :
    (sp, p) ∈ s.presentPages sp :=
  List.mem_filter.2 ⟨List.mem_map.2 ⟨p, List.mem_finRange p, rfl⟩, h⟩

theorem effects_spaceDestroy (s : State) (i : LinkId) (tag id : Byte) : s.Effects (serveSpaceDestroy i tag id s) := by
  unfold serveSpaceDestroy
  split
  · exact (calm_reply ..).effects
  · next sp r hr =>
    dsimp only
    generalize hh : slotRefs.foldl (fun s k => s.slotSpaceGone sp k) s = halted
    have hhalt : s.Effects halted := hh ▸ (calm_foldl s _ _ fun x k => calm_slotSpaceGone x sp k).effects
    generalize hd : (halted.detachAll (halted.presentPages sp)).1 = x
    have hx : s.Effects x := hhalt.trans (hd ▸ effects_detachAll _ _)
    have hnone : ∀ p, x.entry (sp, p) = none := by
      intro p
      rw [← hd, entry_detachAll]
      split
      · rfl
      · next hp => exact Option.not_isSome_iff_eq_none.1 fun h => hp (mem_presentPages halted sp p h)
    have habsent : s.Effects (x.setSpace sp none) := by
      refine hx.tail (.space x sp none (fun q => ?_) nofun)
      obtain ⟨tp, n⟩ := q
      by_cases h : tp = sp
      · subst h; rw [hnone]; simp [State.entry]
      · simp [State.entry, h]
    refine State.Effects.calm ?_ (calm_reply ..)
    split
    · exact habsent
    · exact habsent.calm (calm_raiseOn ..)

theorem effects_spaceGrant (s : State) (i : LinkId) (tag id right : Byte) :
    s.Effects (serveSpaceGrant i tag id right s) := by
  unfold serveSpaceGrant
  split
  · exact (calm_reply ..).effects
  · next sp r hr =>
    split
    · exact (calm_reply ..).effects
    · next g _ =>
      have hsp := findSpace_ok hr
      have hgrant : s.Effects (s.setSpace sp (some { r with guest := g })) := by
        refine .single (.space s sp _ (fun q => ?_) ?_)
        · unfold State.entry
          rw [space_setSpace]
          split
          · next h => simp [h, hsp]
          · rfl
        · rintro new ⟨⟩; exact Or.inl ⟨r, hsp, rfl⟩
      dsimp only
      refine State.Effects.calm ?_ (calm_reply ..)
      split
      · exact hgrant
      · exact hgrant.calm (calm_raiseOn ..)

/-- A page made present does not read the free queue. -/
theorem mapPage_freeQueue (s : State) (p : BackRef) (f : FrameId) (queue : List FrameId) :
    State.mapPage { s with freeQueue := queue } p f = { s.mapPage p f with freeQueue := queue } := by
  have h : ∀ (x : State) (e : Option MapEntry),
      State.setEntry { x with freeQueue := queue } p e = { x.setEntry p e with freeQueue := queue } := by
    intro x e
    unfold State.setEntry
    change (match x.space p.1 with
      | none => _
      | some r => _) = _
    cases x.space p.1 <;> rfl
  exact h (s.setFrame f { s.frame f with state := .held [p] }) _

/-- MAP's pages, each on the head of the free queue in turn (R57). -/
theorem effects_mapPages (ps : List BackRef) : ∀ (fs rest : List FrameId) (s : State), ps.length = fs.length →
    s.freeQueue = fs ++ rest → ps.Nodup → (∀ p ∈ ps, s.entry p = none ∧ s.Room p) →
    s.Effects ((ps.zip fs).foldl (fun s (p, f) => s.mapPage p f) { s with freeQueue := rest }) := by
  induction ps with
  | nil =>
    intro fs rest s hl hq _ _
    obtain rfl : fs = [] := List.length_eq_zero_iff.1 hl.symm
    obtain rfl : s.freeQueue = rest := hq
    exact .refl
  | cons p ps ih =>
    intro fs rest s hl hq hnd hp
    obtain ⟨f, fs, rfl⟩ := List.exists_cons_of_length_eq_add_one hl.symm
    obtain ⟨hp1, hp2⟩ := hp p List.mem_cons_self
    have hmap := State.Effect.mapped s p f (fs ++ rest) hq hp1 hp2
    refine .head hmap ?_
    have hroom : ∀ q, (State.mapPage { s with freeQueue := fs ++ rest } p f).Room q ↔ s.Room q := by
      intro q; unfold State.mapPage; rw [room_setEntry, room_setFrame]; rfl
    have hne : ∀ q ∈ ps, q ≠ p := fun q hq h => (List.nodup_cons.1 hnd).1 (h ▸ hq)
    have := ih fs rest (State.mapPage { s with freeQueue := fs ++ rest } p f) (by simpa using hl)
      (by simp [State.mapPage]) (List.nodup_cons.1 hnd).2 fun q hq => by
        refine ⟨?_, (hroom q).2 (hp q (List.mem_cons_of_mem _ hq)).2⟩
        rw [State.mapPage, entry_setEntry_other _ _ _ _ (hne q hq), entry_setFrame]
        exact (hp q (List.mem_cons_of_mem _ hq)).1
    rw [mapPage_freeQueue] at this
    rw [List.zip_cons_cons, List.foldl_cons]
    dsimp only
    rw [mapPage_freeQueue s p f (fs ++ rest), mapPage_freeQueue s p f rest]
    exact this

theorem effects_map (s : State) (i : LinkId) (tag id : Byte) (first count : Nat) :
    s.Effects (serveMap i tag id first count s) := by
  unfold serveMap
  split
  · exact (calm_reply ..).effects
  · next pages hpages =>
    obtain ⟨hnd, hroom⟩ := findRange_room hpages
    dsimp only
    split
    · exact (calm_reply ..).effects
    · next hn =>
      refine State.Effects.calm ?_ (calm_reply ..)
      have hmap := effects_mapPages (pages.filter fun p => !s.present? p)
        (s.freeQueue.take (pages.filter fun p => !s.present? p).length)
        (s.freeQueue.drop (pages.filter fun p => !s.present? p).length) s
        (by rw [List.length_take]; unfold State.freeCount at hn; omega) (List.take_append_drop _ _).symm (hnd.filter _)
        fun p hp => ⟨by simpa [State.present?] using (List.mem_filter.1 hp).2, hroom p (List.mem_filter.1 hp).1⟩
      split
      · exact hmap
      · exact hmap.calm (calm_examineFall _)

theorem effects_unmap (s : State) (i : LinkId) (tag id : Byte) (first count : Nat) :
    s.Effects (serveUnmap i tag id first count s) := by
  unfold serveUnmap
  split
  · exact (calm_reply ..).effects
  · exact (effects_detachAll _ _).calm (calm_reply ..)

theorem effects_protect (s : State) (i : LinkId) (tag id : Byte) (first count : Nat) (setting : Byte) :
    s.Effects (serveProtect i tag id first count setting s) := by
  unfold serveProtect
  split
  · exact (calm_reply ..).effects
  · split
    · exact (calm_reply ..).effects
    · next on _ =>
      refine (effects_changeEntries (fun e => { e with writeProtect := on }) ?_ ?_ _ s).calm (calm_reply ..) <;>
        exact fun _ => rfl

theorem effects_usage (s : State) (i : LinkId) (tag id : Byte) (first count : Nat) (clear : Byte) :
    s.Effects (serveUsage i tag id first count clear s) := by
  unfold serveUsage
  split
  · exact (calm_reply ..).effects
  · split
    · exact (calm_reply ..).effects
    · dsimp only
      split
      · refine (effects_changeEntries (fun e => { e with referenced := false, modified := false }) ?_ ?_ _ s).calm
          (calm_reply ..) <;> exact fun _ => rfl
      · exact (calm_reply ..).effects

/-! ### CLONE -/

/-- The number of pairs whose source page names a frame. -/
def State.uses (s : State) (pairs : List (BackRef × BackRef)) (f : FrameId) : Nat :=
  pairs.countP fun pq => s.frameOf pq.1 = some f

/-- Pages that CLONE can make present: their sources are present, they are absent with room in their space, and no frame
comes to more than 64 pages (R70, R71). -/
structure State.Clonable (s : State) (pairs : List (BackRef × BackRef)) : Prop where
  source : ∀ pq ∈ pairs, (s.entry pq.1).isSome
  dest : ∀ pq ∈ pairs, s.entry pq.2 = none ∧ s.Room pq.2
  nodup : (pairs.map Prod.snd).Nodup
  shares : ∀ f, 0 < s.uses pairs f → (s.frame f).state.refs.length + s.uses pairs f ≤ 64

theorem entry_clonePage {s : State} {p q : BackRef} (hp : (s.entry p).isSome) (hr : s.Room q) (u : BackRef) :
    (s.clonePage p q).entry u = if u = q then (s.entry p).map fun e =>
      { frame := e.frame, writeProtect := e.writeProtect, referenced := false, modified := false,
        copyPending := s.privateJobFor q } else s.entry u := by
  unfold State.clonePage
  cases he : s.entry p with
  | none => simp [he] at hp
  | some e =>
    dsimp only
    rw [entry_setEntry_of_room ((room_setFrame ..).2 hr)]
    rfl

theorem frame_clonePage {s : State} {p q : BackRef} {e : MapEntry} (he : s.entry p = some e) (f : FrameId) :
    (s.clonePage p q).frame f = if f = e.frame then
      { s.frame e.frame with state := .held ((s.frame e.frame).state.refs ++ [q]) } else s.frame f := by
  unfold State.clonePage
  rw [he]
  dsimp only
  rw [frame_setEntry, frame_setFrame]

theorem room_clonePage (s : State) (p q u : BackRef) : (s.clonePage p q).Room u ↔ s.Room u := by
  unfold State.clonePage
  split
  · rfl
  · rw [room_setEntry, room_setFrame]

/-- One page cloned leaves the rest clonable. -/
theorem clonable_tail {s : State} {p q : BackRef} {pairs : List (BackRef × BackRef)} (h : s.Clonable ((p, q) :: pairs)) :
    (s.clonePage p q).Clonable pairs := by
  obtain ⟨hs, hd, hn, hl⟩ := h
  have hp : (s.entry p).isSome := hs _ List.mem_cons_self
  obtain ⟨hq, hr⟩ := hd _ List.mem_cons_self
  have hent := entry_clonePage hp hr
  have hsrc : ∀ pq ∈ pairs, (s.clonePage p q).entry pq.1 = s.entry pq.1 := by
    intro pq hpq
    rw [hent, if_neg]
    intro e
    have := hs pq (List.mem_cons_of_mem _ hpq)
    rw [e, hq] at this; cases this
  obtain ⟨e, he⟩ := Option.isSome_iff_exists.1 hp
  have huses : ∀ f, s.uses ((p, q) :: pairs) f = (s.clonePage p q).uses pairs f + if e.frame = f then 1 else 0 := by
    intro f
    unfold State.uses State.frameOf
    rw [List.countP_cons, he]
    congr 1
    · exact List.countP_congr fun pq hpq => by rw [hsrc pq hpq]
    · simp
  rw [List.map_cons, List.nodup_cons] at hn
  refine ⟨fun pq hpq => ?_, fun pq hpq => ?_, hn.2, fun f hf => ?_⟩
  · rw [hsrc pq hpq]; exact hs pq (List.mem_cons_of_mem _ hpq)
  · obtain ⟨h1, h2⟩ := hd pq (List.mem_cons_of_mem _ hpq)
    refine ⟨?_, (room_clonePage ..).2 h2⟩
    rw [hent, if_neg]
    · exact h1
    · exact fun h => hn.1 (List.mem_map.2 ⟨pq, hpq, h⟩)
  · have h64 := hl f (by rw [huses]; omega)
    rw [huses] at h64
    rw [frame_clonePage he]
    by_cases h : f = e.frame
    · subst h
      simp only [if_true, FrameState.refs, List.length_append, List.length_singleton] at h64 ⊢
      omega
    · rw [if_neg h]; simp only [Ne.symm h, if_false] at h64; exact h64

theorem effects_clonePages (pairs : List (BackRef × BackRef)) : ∀ s : State, s.Clonable pairs →
    s.Effects (pairs.foldl (fun s (p, q) => s.clonePage p q) s) := by
  induction pairs with
  | nil => exact fun s _ => .refl
  | cons pq pairs ih =>
    intro s h
    obtain ⟨p, q⟩ := pq
    obtain ⟨e, he⟩ := Option.isSome_iff_exists.1 (h.source _ List.mem_cons_self)
    obtain ⟨hq, hr⟩ := h.dest _ List.mem_cons_self
    have hpos : 0 < s.uses ((p, q) :: pairs) e.frame := by
      unfold State.uses State.frameOf
      rw [List.countP_cons, he]
      simp
    have := h.shares e.frame hpos
    exact .head (.cloned s p q e he hq hr (by omega)) (ih _ (clonable_tail h))

theorem zip_fst_sublist {α β : Type} (l : List α) (r : List β) : ((l.zip r).map Prod.fst).Sublist l := by
  rw [List.zip_eq_zip_take_min, List.map_fst_zip (by simp)]
  exact List.take_sublist _ _

theorem zip_snd_sublist {α β : Type} (l : List α) (r : List β) : ((l.zip r).map Prod.snd).Sublist r := by
  rw [List.zip_eq_zip_take_min, List.map_snd_zip (by simp)]
  exact List.take_sublist _ _

/-- The pages that pass CLONE's checks can be cloned (R70, R71). -/
theorem cloneChecks_clonable {s : State} {i : LinkId} {source dest : Byte} {sFirst dFirst count : Nat}
    {pairs : List (BackRef × BackRef)} (h : s.cloneChecks i source sFirst dest dFirst count = .ok pairs) :
    s.Clonable pairs := by
  unfold State.cloneChecks at h
  split at h
  swap
  · cases h
  next sp dp _ _ =>
  split at h
  swap
  · cases h
  next sr dr hsr hdr =>
  dsimp only at h
  split_ifs at h with _ _ h3 _ h5 h6 h7
  cases h
  simp only [Bool.or_eq_true, Bool.not_eq_true', not_or, Bool.not_eq_false, SpaceRecord.rangeOk, decide_eq_true_eq] at h3
  have hdest : ∀ pq ∈ (pagesFrom sp sFirst count).zip (pagesFrom dp dFirst count), pq.2 ∈ pagesFrom dp dFirst count :=
    fun pq hpq => (List.of_mem_zip hpq).2
  refine ⟨fun pq hpq => ?_, fun pq hpq => ⟨?_, ?_⟩, ?_, fun f hf => ?_⟩
  · by_contra hn
    exact h5 (List.any_eq_true.2 ⟨pq.1, (List.of_mem_zip hpq).1, by simpa [State.present?] using hn⟩)
  · by_contra hn
    exact h6 (List.any_eq_true.2 ⟨pq.2, hdest pq hpq, Option.isSome_iff_ne_none.2 hn⟩)
  · obtain ⟨h1, _, h2⟩ := (mem_pagesFrom ..).1 (hdest pq hpq)
    exact ⟨dr, h1 ▸ hdr, by omega⟩
  · exact (pagesFrom_eq dp dFirst count ▸ rangePages_nodup dp dFirst count).sublist (zip_snd_sublist _ _)
  · have hle : s.uses ((pagesFrom sp sFirst count).zip (pagesFrom dp dFirst count)) f ≤
        ((pagesFrom sp sFirst count).filterMap s.frameOf).count f := by
      have hsub := (zip_fst_sublist (pagesFrom sp sFirst count) (pagesFrom dp dFirst count)).countP_le
        (p := fun p => s.frameOf p == some f)
      rw [List.countP_map] at hsub
      rw [List.count_filterMap]
      simpa [State.uses, Function.comp_def, beq_eq_decide] using hsub
    have hmem : f ∈ (pagesFrom sp sFirst count).filterMap s.frameOf := List.count_pos_iff.1 (by omega)
    by_contra hn
    refine h7 (List.any_eq_true.2 ⟨f, hmem, ?_⟩)
    unfold FrameRecord.shareCount
    simp only [decide_eq_true_eq]
    omega

theorem effects_clone (s : State) (i : LinkId) (tag source : Byte) (sFirst : Nat) (dest : Byte) (dFirst count : Nat) :
    s.Effects (serveClone i tag source sFirst dest dFirst count s) := by
  unfold serveClone
  split
  · exact (calm_reply ..).effects
  · next pairs h => exact (effects_clonePages pairs s (cloneChecks_clonable h)).calm (calm_reply ..)

/-! ### CONFIG, RETIRE, CHECK and SEG -/

theorem effects_config (s : State) (i : LinkId) (tag item : Byte) (v : Nat) :
    s.Effects (serveConfig i tag item v s) := by
  unfold serveConfig
  dsimp only
  split
  · exact (calm_reply ..).effects
  · next c _ =>
    split
    · split <;> exact (calm_reply ..).effects
    · split
      swap
      · exact (calm_reply ..).effects
      next hv =>
      refine State.Effects.calm ?_ (calm_reply ..)
      unfold State.setConfig
      cases c with
      | noticeMask => exact (calm_onLink_of_eq s i _ rfl rfl).effects
      | dormancyInterval => exact (calm_onLink_of_eq s i _ rfl rfl).effects
      | slotTimeout => exact (calm_onLink_of_eq s i _ rfl rfl).effects
      | scrubInterval =>
        simp only [ConfigItem.inRange, decide_eq_true_eq] at hv
        refine .single (.scrub s v s.scrub.threshold _ (Or.inr hv) (Or.inl rfl) ?_)
        split_ifs <;> simp_all
      | retireThreshold =>
        simp only [ConfigItem.inRange, Bool.and_eq_true, decide_eq_true_eq] at hv
        exact .single (.scrub s s.scrub.interval v s.scrub.walkTimer (Or.inl rfl) (Or.inr hv) id)
      | lowMark =>
        simp only [ConfigItem.inRange, decide_eq_true_eq] at hv
        exact State.Effects.calm (.single (.lowMark s v hv)) (calm_setSupply ..)

theorem effects_retire (s : State) (i : LinkId) (tag : Byte) (number : Nat) :
    s.Effects (serveRetire i tag number s) := by
  unfold serveRetire
  split
  · exact (calm_answer ..).effects
  · next f _ =>
    dsimp only
    split
    · exact (calm_answerRetire ..).effects
    · split
      · exact (calm_answerRetire ..).effects
      · next hd =>
        split
        · next hf =>
          exact State.Effects.calm (.single (.retired s f true hf fun _ => Nat.lt_of_not_le hd)) (calm_answerRetire ..)
        · exact .tail (calm_blocks s _ _ _ _ _ _ _ _ _ rfl rfl id).effects (.flagged _ f _)
        · split
          · next hm => exact .single (.moved s f _ hm)
          · exact (calm_answerRetire ..).effects
        · exact (calm_answerRetire ..).effects
        · exact (calm_answerRetire ..).effects

theorem sameRecords_scrub (s : State) (c : Scrubber) (hr : c.retired = s.scrub.retired)
    (hd : c.discretionary = s.scrub.discretionary) (hi : c.interval = s.scrub.interval)
    (ht : c.threshold = s.scrub.threshold) : s.SameRecords { s with scrub := c } :=
  ⟨rfl, rfl, rfl, rfl, rfl, hr, hd, hi, ht, rfl⟩

theorem sameRecords_present (s : State) (c : Client) : s.SameRecords (s.present c) := by
  constructor <;> simp

theorem sameRecords_startCheck (s : State) (f : FrameId) (work : CheckWork) : s.SameRecords (s.startCheck f work) := by
  refine (sameRecords_scrub s _ ?_ ?_ ?_ ?_).trans (sameRecords_present _ .scrubber) <;> rfl

theorem sameRecords_advanceCursor (s : State) : s.SameRecords s.advanceCursor := by
  unfold State.advanceCursor; split <;> constructor <;> simp

/-- The check engine's next work reads and changes no record. -/
theorem sameRecords_nextWork (fuel : Nat) : ∀ s : State, s.SameRecords (s.nextWork fuel) := by
  induction fuel with
  | zero => exact fun s => .refl s
  | succ n ih =>
    intro s
    unfold State.nextWork
    split
    · exact .refl s
    · split
      · split
        · exact sameRecords_startCheck ..
        · refine ((sameRecords_scrub s _ ?_ ?_ ?_ ?_).trans (calm_answerCheckState _ _).toSameRecords).trans (ih _) <;> rfl
      · split
        · unfold State.walkVisit
          dsimp only
          split
          · refine ((sameRecords_scrub s _ ?_ ?_ ?_ ?_).trans (sameRecords_startCheck _ _ _)).trans
              (sameRecords_advanceCursor _) <;> rfl
          · refine (sameRecords_scrub s _ ?_ ?_ ?_ ?_).trans (sameRecords_advanceCursor _) <;> rfl
        · exact .refl s

/-- The Scrubber takes its next work after a change of its CHECK queue or of its walk timer. -/
theorem effect_takeWork (s : State) (queue : List FrameRequest) (timer : WalkTimer) :
    s.Effect (State.takeWork { s with scrub := { s.scrub with checkQueue := queue, walkTimer := timer } }) := by
  set x : State := { s with scrub := { s.scrub with checkQueue := queue, walkTimer := timer } } with hx
  have hr : x.SameRecords x.takeWork := sameRecords_nextWork _ x
  have ho := orderly_takeWork x
  exact .records ⟨hr.frames, hr.clearQueue, hr.freeQueue, hr.spaces, hr.lowMark, hr.retired, hr.discretionary, hr.interval,
      hr.threshold, hr.jobs⟩
    ⟨ho.memory, ho.current, ho.clearQueue, ho.jobs, ho.engine, ho.free,
      fun i => .trans (by cases i <;> exact .refl _) (ho.links i), ho.clearer, ho.copier, ho.checker,
      fun _ => takeWork_served x⟩

theorem effects_check (s : State) (i : LinkId) (tag : Byte) (number : Nat) :
    s.Effects (serveCheck i tag number s) := by
  unfold serveCheck
  split
  · exact (calm_answer ..).effects
  · split
    · exact .single (effect_takeWork s _ s.scrub.walkTimer)
    · exact (calm_answerCheckState ..).effects

theorem effects_takeSegment (s : State) (k : SlotRef) (tag : Byte) (t : Transfer) (toggle : Bool) (body : List Byte)
    (count : Nat) (h : count ≤ 64) : s.Effects (s.takeSegment k tag t toggle body count) := by
  unfold State.takeSegment
  split
  · exact (calm_segReply ..).effects
  · split
    · split
      · exact (calm_segReply ..).effects
      · exact (calm_haltReply ..).effects
    · split
      · exact (calm_segReply ..).effects
      · split
        · exact (calm_haltReply ..).effects
        · refine (((calm_setSlot ..).trans (calm_onLink _ k.1 _ ⟨?_, le_rfl⟩)).effects).tail
            (.records (by constructor <;> simp) (orderly_present ..))
          rintro g ⟨⟩
          exact Or.inr ((Nat.min_le_left _ _).trans h)

theorem effects_seg (s : State) (i : LinkId) (tag slot toggle : Byte) (body : List Byte) (h : body.length ≤ 64) :
    s.Effects (serveSeg i tag slot toggle body s) := by
  unfold serveSeg
  split
  · exact (calm_reply ..).effects
  · split
    · exact (calm_reply ..).effects
    · dsimp only
      split
      · exact (calm_reply ..).effects
      · split
        · exact effects_takeSegment s _ tag _ _ _ _ h
        · split
          · next hc => exact effects_takeSegment s _ tag _ _ [] _ hc.2
          · exact (calm_reply ..).effects
        · exact (calm_reply ..).effects

/-! ### Every request -/

theorem calm_serveHello (s : State) (i : LinkId) (m : Message) (version : Byte) (rxdLow : Bool) :
    s.Calm (serveHello i m version rxdLow s) := by
  unfold serveHello
  split
  · exact calm_reject ..
  · refine .trans ?_ ((calm_onLink_of_eq _ i (fun l => { l with state := .up }) rfl rfl).trans (calm_reply ..))
    split
    · exact .refl s
    · exact calm_linkReset ..

theorem calm_serveLinkStatus (s : State) (i : LinkId) (tag clear : Byte) : s.Calm (serveLinkStatus i tag clear s) := by
  unfold serveLinkStatus
  split
  · exact calm_reply ..
  · dsimp only
    refine .trans ?_ (calm_reply ..)
    split
    · exact calm_onLink_of_eq s i _ rfl rfl
    · exact .refl s

theorem calm_serveOpen (s : State) (i : LinkId) (tag slot direction id : Byte) (start length : Nat) :
    s.Calm (serveOpen i tag slot direction id start length s) := by
  unfold serveOpen
  dsimp only
  split
  · split
    · exact calm_reply ..
    · split
      · exact calm_reply ..
      · split
        · exact calm_reply ..
        · exact (calm_setSlot ..).trans (calm_reply ..)
  · exact calm_reply ..

theorem calm_serveClose (s : State) (i : LinkId) (tag slot : Byte) : s.Calm (serveClose i tag slot s) := by
  unfold serveClose
  split
  · exact calm_reply ..
  · split
    · exact calm_reply ..
    · exact (calm_idleSlot ..).trans (calm_reply ..)

theorem calm_serveWaitFree (s : State) (i : LinkId) (tag : Byte) (count timeout : Nat) :
    s.Calm (serveWaitFree i tag count timeout s) := by
  unfold serveWaitFree
  split
  · exact calm_answerWaitFree ..
  · split
    · exact calm_answerWaitFree ..
    · split
      · exact calm_answerWaitFree ..
      · exact calm_fields s _ _ _ _ _

theorem calm_serveSpaceInfo (s : State) (i : LinkId) (tag id : Byte) : s.Calm (serveSpaceInfo i tag id s) := by
  unfold serveSpaceInfo; split <;> exact calm_reply ..

theorem calm_serveSlotInfo (s : State) (i : LinkId) (tag slot : Byte) : s.Calm (serveSlotInfo i tag slot s) := by
  unfold serveSlotInfo; split <;> exact calm_reply ..

theorem calm_serveFrameInfo (s : State) (i : LinkId) (tag : Byte) (number : Nat) :
    s.Calm (serveFrameInfo i tag number s) := by
  unfold serveFrameInfo; split <;> exact calm_reply ..

/-- A request served is a chain of effects; a SEG carries at most 64 bytes (R155). -/
theorem effects_serve (s : State) (i : LinkId) (kind : RequestKind) (m : Message) (rxdLow : Bool)
    (h : kind.lengthOk m.payload.length = true) : s.Effects (serve i kind m rxdLow s) := by
  unfold serve
  split
  · exact (calm_serveHello ..).effects
  · exact (calm_reply ..).effects
  · exact (calm_reply ..).effects
  · exact effects_config ..
  · exact (calm_serveLinkStatus ..).effects
  · exact (calm_reply ..).effects
  · exact effects_spaceCreate ..
  · exact effects_spaceDestroy ..
  · exact effects_spaceGrant ..
  · exact (calm_serveSpaceInfo ..).effects
  · exact effects_map ..
  · exact effects_unmap ..
  · exact effects_protect ..
  · exact effects_clone ..
  · exact effects_usage ..
  · exact (calm_serveOpen ..).effects
  · next k toggle body hp =>
    refine effects_seg s i _ k toggle body ?_
    simp only [hp, RequestKind.lengthOk, List.length_cons, decide_eq_true_eq] at h
    omega
  · exact (calm_serveClose ..).effects
  · exact (calm_serveSlotInfo ..).effects
  · exact (calm_serveFrameInfo ..).effects
  · exact effects_retire ..
  · exact effects_check ..
  · exact (calm_serveWaitFree ..).effects
  · exact .refl

/-- A message refused or served is a chain of effects (R136–R138). -/
theorem effects_take (s : State) (i : LinkId) (m : Message) (rxdLow : Bool) : s.Effects (s.take i m rxdLow) := by
  unfold State.take
  split
  · exact (calm_reject ..).effects
  · next kind hk =>
    refine (calm_acceptDeferred ..).effects.trans (effects_serve _ i kind m rxdLow ?_)
    unfold Link.intake at hk
    split at hk
    · cases hk
    · split_ifs at hk with hl
      cases hk
      simpa using hl

end Sys2Proof.Machine
end

section
/-! SUPPORT. A segment's grant (R64, R65, R159–R167): its access to the stored words, then a chain of effects. -/

namespace Sys2Proof.Machine

/-! ### Translation -/

/-- A page names a frame. -/
def State.Names (s : State) (f : FrameId) : Prop := ∃ p e, s.entry p = some e ∧ e.frame = f

theorem translatePage_moveOk {s : State} {d : Direction} {p : BackRef} {f : FrameId}
    (h : s.translatePage d p = .moveOk f) : s.Names f := by
  unfold State.translatePage at h
  split at h
  · cases h
  · next e he =>
    dsimp only at h
    split_ifs at h <;> cases h <;> exact ⟨p, e, he, rfl⟩

theorem translatePage_needsCopy {s : State} {d : Direction} {p : BackRef} {e : MapEntry}
    (h : s.translatePage d p = .needsCopy e) : s.entry p = some e ∧ e.copyPending = false := by
  unfold State.translatePage at h
  split at h
  · cases h
  · next e' he =>
    dsimp only at h
    split_ifs at h with _ _ _ _ hc
    cases h
    exact ⟨he, by simpa using hc⟩

/-- The parts of a segment translated MOVE-OK lie in frames that pages name, and are the runs it touches. -/
theorem translate_moveOk {s : State} {d : Direction} {sp : SpaceId} (touched : List (Nat × Nat × Nat)) :
    ∀ {parts pages}, s.translate d sp touched = .moveOk parts pages →
      ∀ p ∈ parts, s.Names p.frame ∧ ∃ number, (number, p.offset, p.count) ∈ touched := by
  induction touched with
  | nil => intro parts pages h; cases h; exact fun p hp => absurd hp List.not_mem_nil
  | cons run rest ih =>
    obtain ⟨number, offset, count⟩ := run
    intro parts pages h
    unfold State.translate at h
    split at h
    · cases h
    · split at h
      · next f hf =>
        split at h
        · next parts' pages' hrest =>
          cases h
          intro p hp
          rcases List.mem_cons.1 hp with rfl | hp
          · exact ⟨translatePage_moveOk hf, number, List.mem_cons_self⟩
          · obtain ⟨h1, n, h2⟩ := ih hrest p hp
            exact ⟨h1, n, List.mem_cons_of_mem _ h2⟩
        · next hrest => exact absurd h (hrest _ _)
      · cases h

theorem translate_needsCopy {s : State} {d : Direction} {sp : SpaceId} {p : BackRef} {e : MapEntry}
    (touched : List (Nat × Nat × Nat)) :
    s.translate d sp touched = .stop p (.needsCopy e) → s.entry p = some e ∧ e.copyPending = false := by
  induction touched with
  | nil => intro h; cases h
  | cons run rest ih =>
    obtain ⟨number, offset, count⟩ := run
    intro h
    unfold State.translate at h
    split at h
    · cases h
    · split at h
      · split at h
        · cases h
        · exact ih h
      · simp only [Translation.stop.injEq] at h
        obtain ⟨rfl, hans⟩ := h
        exact translatePage_needsCopy hans

/-- A segment of at most 64 bytes touches runs that lie within their pages (R64). -/
theorem pagesTouched_fits {address count number offset n : Nat} (hc : count ≤ 64)
    (h : (number, offset, n) ∈ pagesTouched address count) : offset + n ≤ 512 := by
  unfold pagesTouched at h
  dsimp only at h
  split at h
  · simp only [List.mem_singleton, Prod.mk.injEq] at h; omega
  · simp only [List.mem_cons, List.not_mem_nil, or_false, Prod.mk.injEq] at h
    have := Nat.mod_lt address (show 512 > 0 by decide)
    omega

/-! ### The grant -/

@[simp] theorem entry_commonEffect (s : State) (finder : Finder) (e : ErrorEvent) (p : BackRef) :
    (s.commonEffect finder e).entry p = s.entry p := by
  unfold State.commonEffect
  split
  · rfl
  · dsimp only
    split
    · rfl
    · rw [entry_raiseBoth, entry_setFrame]

theorem effects_commonEffects (finder : Finder) (es : List ErrorEvent) :
    ∀ s : State, (∀ e ∈ es, s.Names e.frame) → s.Effects (s.commonEffects finder es) := by
  induction es with
  | nil => exact fun s _ => .refl
  | cons e es ih =>
    intro s h
    have hrest := ih (s.commonEffect finder e) fun e' he' => by
      obtain ⟨p, en, hp, hf⟩ := h e' (List.mem_cons_of_mem _ he')
      exact ⟨p, en, (entry_commonEffect ..).trans hp, hf⟩
    exact .head (.error s finder e (h e List.mem_cons_self)) hrest

theorem effects_acceptSegment (s : State) (k : SlotRef) (g : Segment) (t : Transfer) (pages : List BackRef)
    (data : List Byte) : s.Effects (s.acceptSegment k g t pages data) :=
  ((effects_changeEntries (markPage t.direction) (fun _ => rfl) (fun _ => rfl) pages s).calm (calm_setSlot ..)).calm
    (calm_segReply ..)

/-- A frame that holds a word of some parts is the frame of one. -/
theorem frame_of_mem_words {parts : List Part} {g : FrameId} {v : WordId} (h : (g, v) ∈ parts.flatMap Part.words) :
    ∃ p ∈ parts, p.frame = g := by
  obtain ⟨p, hp, hw⟩ := List.mem_flatMap.1 h
  exact ⟨p, hp, ((mem_partWords ..).1 hw).1.symm⟩

theorem mem_words_of_mergeWords {parts : List Part} {a : FrameId × WordId} (h : a ∈ parts.flatMap Part.mergeWords) :
    a ∈ parts.flatMap Part.words := by
  obtain ⟨p, hp, hw⟩ := List.mem_flatMap.1 h
  exact List.mem_flatMap.2 ⟨p, hp, List.mem_of_mem_filter hw⟩

/-- The stored words after an access to a segment's parts: bytes of other frames stay. -/
def Memory.SameOutside (m m' : Memory) (parts : List Part) : Prop :=
  (∀ p ∈ parts, p.offset + p.count ≤ 512) →
    ∀ g o, o < 512 → (∀ p ∈ parts, p.frame ≠ g) → m'.readByte g o = m.readByte g o

/-- A segment's data move is its access, then the Frame Table's effects and the slot's response (R164, R165, R167). -/
theorem effects_moveSegment (s : State) (k : SlotRef) (g : Segment) (t : Transfer) (parts : List Part)
    (pages : List BackRef) (h : ∀ p ∈ parts, s.Names p.frame) :
    ∃ m : Memory, s.memory.SameOutside m parts ∧
      State.Effects { s with memory := m } (s.moveSegment k g t parts pages) := by
  have herrors : ∀ (m : Memory) (finder : Finder) (words : List (FrameId × WordId)),
      (∀ a ∈ words, a ∈ parts.flatMap Part.words) →
      State.Effects { s with memory := m }
        (State.commonEffects { s with memory := m } finder (s.memory.errorsIn words)) := by
    refine fun m finder words hw => effects_commonEffects _ _ _ fun e he => ?_
    obtain ⟨p, hp, hf⟩ := frame_of_mem_words (hw _ ((mem_errorsIn ..).1 he).1)
    exact hf ▸ h p hp
  unfold State.moveSegment
  cases t.direction with
  | read =>
    refine ⟨(s.memory.segmentRead parts).1, fun _ g o _ _ => readByte_segmentRead .., ?_⟩
    have he := herrors (s.memory.segmentRead parts).1 .read (parts.flatMap Part.words) fun _ ha => ha
    dsimp only
    split
    · exact he.trans (effects_acceptSegment ..)
    · exact he.calm (calm_haltReply ..)
  | write =>
    refine ⟨(s.memory.segmentWrite parts g.bytes).1,
      fun hp f o ho hf => readByte_segmentWrite_other _ _ _ _ _ (fun p hmem => ⟨hp p hmem, hf p hmem⟩) ho, ?_⟩
    have he : State.Effects { s with memory := (s.memory.segmentWrite parts g.bytes).1 }
        (State.commonEffects { s with memory := (s.memory.segmentWrite parts g.bytes).1 } .merge
          (s.memory.segmentWrite parts g.bytes).2.1) := by
      have hw : (s.memory.segmentWrite parts g.bytes).2.1 = s.memory.errorsIn (parts.flatMap Part.mergeWords) := by
        unfold Memory.segmentWrite; dsimp only; split <;> rfl
      rw [hw]
      exact herrors _ .merge _ fun a ha => mem_words_of_mergeWords ha
    dsimp only
    split
    · exact he.trans (effects_acceptSegment ..)
    · exact he.calm (calm_haltReply ..)

/-- What a translation that stops the segment leads to (Table 8-3). -/
theorem effects_stopSegment (s : State) (k : SlotRef) (g : Segment) (p : BackRef) (answer : PageAnswer)
    (h : ∀ e, answer = .needsCopy e → s.entry p = some e ∧ e.copyPending = false) :
    s.Effects (s.stopSegment k g p answer) := by
  unfold State.stopSegment
  split
  · exact .refl
  · exact (calm_haltReply ..).effects
  · exact ((calm_joinWaiters ..).trans (calm_segReply ..)).effects
  · exact ((calm_joinWaiters ..).trans (calm_segReply ..)).effects
  · next e =>
    obtain ⟨he, hc⟩ := h e rfl
    split
    · exact ((calm_leaveWaiters ..).trans (calm_segReply ..)).effects
    · next hj =>
      split
      · exact (calm_haltReply ..).effects
      · next hq =>
        exact State.Effects.calm ((calm_leaveWaiters s k).effects.tail (.copied _ p e k he hc
          (by simpa [State.leaveWaiters] using hj) hq)) (calm_segReply ..)

/-- A segment's grant is an access to the stored words of frames that pages name, within their bounds for a segment of
at most 64 bytes, then a chain of effects (R159–R167). -/
theorem effects_grantSegment (s : State) (i : LinkId) :
    ∃ m : Memory, State.Effects { s with memory := m } (s.grantSegment i) ∧
      ((∀ g, (s.link i).segment = some g → g.count ≤ 64) →
        ∀ f o, o < 512 → ¬s.Names f → m.readByte f o = s.memory.readByte f o) := by
  have still : ∀ t, s.Calm t → ∃ m : Memory, State.Effects { s with memory := m } t ∧
      ((∀ g, (s.link i).segment = some g → g.count ≤ 64) →
        ∀ f o, o < 512 → ¬s.Names f → m.readByte f o = s.memory.readByte f o) :=
    fun t ht => ⟨s.memory, ht.effects, fun _ _ _ _ _ => rfl⟩
  unfold State.grantSegment
  split
  · exact still s (.refl s)
  · next g hg =>
    dsimp only
    set x := s.onLink i fun l => { l with segment := none } with hx
    have hcalm : s.Calm x := calm_dropSegment s i
    split
    · exact still x hcalm
    · next t ht =>
      split_ifs
      swap
      · exact still _ (hcalm.trans (calm_haltReply ..))
      split
      · next parts pages htr =>
        have hparts := translate_moveOk _ htr
        obtain ⟨m, hm, heff⟩ := effects_moveSegment x (i, g.slot) g t parts pages fun p hp => (hparts p hp).1
        refine ⟨m, ?_, fun hsmall f o ho hf => ?_⟩
        · have hswap : ({ x with memory := m } : State) =
              State.onLink { s with memory := m } i fun l => { l with segment := none } := by
            rw [hx]; cases i <;> rfl
          exact (calm_dropSegment { s with memory := m } i).effects.trans (hswap ▸ heff)
        · rw [hm (fun p hp => ?_) f o ho fun p hp h => hf ?_]
          · rw [hx, onLink_memory]
          · obtain ⟨_, n, hn⟩ := hparts p hp
            exact pagesTouched_fits (hsmall g hg) hn
          · obtain ⟨⟨q, e, hq, he⟩, _⟩ := hparts p hp
            exact ⟨q, e, by simpa [hx] using hq, he.trans h⟩
      · next p answer htr =>
        have hstop := effects_stopSegment x (i, g.slot) g p answer fun e he => translate_needsCopy _ (he ▸ htr)
        exact ⟨s.memory, hcalm.effects.trans hstop, fun _ _ _ _ _ => rfl⟩

end Sys2Proof.Machine
end

section
/-! SUPPORT. How a step ends (R10, R125, R136): the arbiter's grants end with the store busy or nobody waiting, the messages
that can be taken are taken, and every block has its work in hand. -/

namespace Sys2Proof.Machine

/-! ### Effects are orderly -/

theorem effect_orderly {s t : State} (h : s.Effect t) : s.Orderly t := by
  cases h with
  | records hr ho => exact ho
  | lowMark v hv =>
    exact State.SameWork.orderly (t := { s with lowMark := v })
      ⟨rfl, rfl, fun _ _ h => h, fun _ h => h, rfl, id, rfl⟩ rfl rfl (fun _ h => h) fun i => by cases i <;> exact .refl _
  | scrub interval threshold timer hi ht hw => exact orderly_scrub s _ rfl id hw
  | space sp r hp hs => exact orderly_setSpace ..
  | entry p e e' h hf hc => exact orderly_setEntry ..
  | detached p => exact orderly_detach ..
  | mapped p f rest hq hp hr => exact (orderly_freeQueue s rest).trans (orderly_mapPage ..)
  | cloned p q e hp hq hr hl => exact orderly_clonePage ..
  | retired f d hf hd => exact orderly_retireFree ..
  | flagged f flag => exact orderly_setFrame s f _ id
  | moved f requester hm => exact orderly_makeMove ..
  | copied p e k h hc hj hq => exact orderly_makePrivate ..
  | error finder e h => exact orderly_commonEffect ..

theorem effects_orderly {s t : State} (h : s.Effects t) : s.Orderly t := by
  induction h with
  | refl => exact .refl s
  | tail _ he ih => exact ih.trans (effect_orderly he)

/-- The end of a link's event changes neither its segment nor the messages awaiting intake. -/
theorem calm_settle (s : State) : s.Calm s.settle := by
  have h := (calm_onLink_of_eq s .link0 Link.settle (by simp) (by simp)).trans
    (calm_onLink_of_eq _ .link1 Link.settle (by simp) (by simp))
  exact h

/-! ### Every block has its work in hand -/

/-- Each block with work has it in hand (R26, R76, R94). -/
structure State.Working (s : State) : Prop where
  clearer : s.ClearerServed
  copier : s.CopierServed
  checker : s.CheckerServed
  idle : s.EngineServed

theorem State.Working.of_orderly {s t : State} (h : s.Working) (ho : s.Orderly t) : t.Working :=
  ⟨ho.clearer h.clearer, ho.copier h.copier, ho.checker h.checker, ho.idle h.idle⟩

/-- The state of a client's grant, before its access (R10). -/
def State.serving (s : State) (c : Client) : State :=
  { s with arbiter := { s.arbiter with waiting := s.arbiter.waiting.filter fun d => d ≠ c, lastServed := c } }

theorem grant_eq (s : State) (c : Client) : s.grant c = (s.serving c).runAccess c := rfl

theorem mem_serving (s : State) (c d : Client) :
    d ∈ (s.serving c).arbiter.waiting ↔ d ∈ s.arbiter.waiting ∧ d ≠ c := by
  simp [State.serving]

theorem link_serving (s : State) (c : Client) (i : LinkId) : (s.serving c).link i = s.link i := by cases i <;> rfl

/-- Everything a whole-frame grant can do (R10, R11): nothing if its client has no work, else its access begins. -/
theorem runAccess_cases (s : State) (c : Client) (h : ∀ i, c ≠ .dataPath i) :
    (s.runAccess c = s ∧ (c = .clearer ∧ s.clearQueue = [] ∨ c = .copyEngine ∧ s.jobs = [] ∨
      c = .scrubber ∧ s.scrub.engine = .idle)) ∨
    (∃ f rest, c = .clearer ∧ s.clearQueue = f :: rest ∧ s.runAccess c = s.begin (.clear f) (s.memory.clearFrame f)) ∨
    (∃ j rest, c = .copyEngine ∧ s.jobs = j :: rest ∧
      s.runAccess c = s.begin (.copy j.source j.target (s.memory.errorsIn (frameWords j.source)))
        (s.memory.frameCopy j.source j.target).1) ∨
    (∃ f work, c = .scrubber ∧ s.scrub.engine = .busy f work ∧
      s.runAccess c = s.begin (.check f (s.memory.errorsIn (frameWords f))) (s.memory.frameCheck f).1) := by
  cases c with
  | dataPath i => exact absurd rfl (h i)
  | clearer =>
    unfold State.runAccess
    cases hq : s.clearQueue with
    | nil => exact Or.inl ⟨rfl, Or.inl ⟨rfl, rfl⟩⟩
    | cons f rest => exact Or.inr (Or.inl ⟨f, rest, rfl, rfl, rfl⟩)
  | copyEngine =>
    unfold State.runAccess
    cases hq : s.jobs with
    | nil => exact Or.inl ⟨rfl, Or.inr (Or.inl ⟨rfl, rfl⟩)⟩
    | cons j rest => exact Or.inr (Or.inr (Or.inl ⟨j, rest, rfl, rfl, rfl⟩))
  | scrubber =>
    unfold State.runAccess
    cases hq : s.scrub.engine with
    | idle => exact Or.inl ⟨rfl, Or.inr (Or.inr ⟨rfl, rfl⟩)⟩
    | busy f work => exact Or.inr (Or.inr (Or.inr ⟨f, work, rfl, rfl, rfl⟩))

theorem link_begin (s : State) (a : Access) (m : Memory) (i : LinkId) : (s.begin a m).link i = s.link i := by
  cases i <;> rfl

/-- A grant leaves every block with its work in hand. -/
theorem grant_working {s : State} (h : s.Working) (hc : s.arbiter.current = none) (c : Client) :
    (s.grant c).Working := by
  have hclear : s.clearQueue = [] ∨ Client.clearer ∈ s.arbiter.waiting := by
    simpa [State.ClearerServed, Arbiter.clearing, hc] using h.clearer
  have hcopy : s.jobs = [] ∨ Client.copyEngine ∈ s.arbiter.waiting := by
    simpa [State.CopierServed, hc] using h.copier
  have hcheck : s.scrub.engine = .idle ∨ Client.scrubber ∈ s.arbiter.waiting := by
    simpa [State.CheckerServed, hc] using h.checker
  have hstay : ∀ d, d ≠ c → d ∈ s.arbiter.waiting → d ∈ (s.serving c).arbiter.waiting :=
    fun d hd hw => (mem_serving s c d).2 ⟨hw, hd⟩
  rw [grant_eq]
  by_cases hp : ∀ i, c ≠ .dataPath i
  · rcases runAccess_cases (s.serving c) c hp with ⟨he, hn⟩ | ⟨f, rest, rfl, hq, he⟩ | ⟨j, rest, rfl, hq, he⟩ |
      ⟨f, work, rfl, hq, he⟩ <;> rw [he]
    · refine ⟨?_, ?_, ?_, h.idle⟩
      · by_cases e : Client.clearer = c
        · subst e; exact Or.inl (by simpa using hn)
        · exact hclear.imp_right fun hw => Or.inr (hstay _ e hw)
      · by_cases e : Client.copyEngine = c
        · subst e; exact Or.inl (by simpa using hn)
        · exact hcopy.imp_right fun hw => Or.inr (hstay _ e hw)
      · by_cases e : Client.scrubber = c
        · subst e; exact Or.inl (by simpa using hn)
        · exact hcheck.imp_right fun hw => Or.inr (hstay _ e hw)
    · exact ⟨Or.inr (Or.inl rfl), hcopy.imp_right fun hw => Or.inr (hstay _ nofun hw),
        hcheck.imp_right fun hw => Or.inr (hstay _ nofun hw), h.idle⟩
    · exact ⟨hclear.imp_right fun hw => Or.inr (hstay _ nofun hw), Or.inr (Or.inl ⟨_, _, _, rfl⟩),
        hcheck.imp_right fun hw => Or.inr (hstay _ nofun hw), h.idle⟩
    · exact ⟨hclear.imp_right fun hw => Or.inr (hstay _ nofun hw), hcopy.imp_right fun hw => Or.inr (hstay _ nofun hw),
        Or.inr (Or.inl ⟨_, _, rfl⟩), h.idle⟩
  · push Not at hp
    obtain ⟨i, rfl⟩ := hp
    obtain ⟨m, heff, _⟩ := effects_grantSegment (s.serving (.dataPath i)) i
    refine State.Working.of_orderly ?_ (effects_orderly heff)
    exact ⟨hclear.imp_right fun hw => Or.inr (hstay _ nofun hw), hcopy.imp_right fun hw => Or.inr (hstay _ nofun hw),
      hcheck.imp_right fun hw => Or.inr (hstay _ nofun hw), h.idle⟩

/-- A grant leaves a link's segment and the messages awaiting intake, or takes them. -/
theorem grant_links (s : State) (c : Client) (i : LinkId) : (s.link i).Quiet ((s.grant c).link i) := by
  rw [grant_eq, ← link_serving s c i]
  by_cases hp : ∀ i, c ≠ .dataPath i
  · rcases runAccess_cases (s.serving c) c hp with ⟨he, _⟩ | ⟨_, _, _, _, he⟩ | ⟨_, _, _, _, he⟩ | ⟨_, _, _, _, he⟩
      <;> rw [he]
    · exact .refl _
    all_goals rw [link_begin]; exact .refl _
  · push Not at hp
    obtain ⟨j, rfl⟩ := hp
    obtain ⟨m, heff, _⟩ := effects_grantSegment (s.serving (.dataPath j)) j
    refine .trans ?_ ((effects_orderly heff).links i)
    cases i <;> exact .refl _

/-! ### The arbiter's grants end (R10) -/

theorem sameWork_foldl {α : Type} (step : State → α → State) (l : List α)
    (h : ∀ (x : State) (a : α), x.SameWork (step x a)) (s : State) : s.SameWork (l.foldl step s) :=
  foldl_keeps (fun x : State => s.SameWork x) step l (fun x a _ hx => hx.trans (h x a)) s (.refl s)

theorem sameWork_setEntry (s : State) (p : BackRef) (e : Option MapEntry) : s.SameWork (s.setEntry p e) := by
  unfold State.setEntry
  split
  · exact .refl s
  · exact sameWork_setSpace ..

theorem sameWork_commonEffects (s : State) (finder : Finder) (es : List ErrorEvent) :
    s.SameWork (s.commonEffects finder es) := by
  refine sameWork_foldl _ es (fun x e => ?_) s
  unfold State.commonEffect
  split
  · exact sameWork_setFrame ..
  · dsimp only
    split
    · exact sameWork_setFrame ..
    · exact (sameWork_setFrame ..).trans (calm_raiseBoth ..).toSameWork

theorem sameWork_acceptSegment (s : State) (k : SlotRef) (g : Segment) (t : Transfer) (pages : List BackRef)
    (data : List Byte) : s.SameWork (s.acceptSegment k g t pages data) := by
  refine .trans (sameWork_foldl _ pages (fun x p => ?_) s)
    ((calm_setSlot _ k _).trans (calm_segReply ..)).toSameWork
  unfold State.changeEntry
  split
  · exact .refl x
  · exact sameWork_setEntry ..

theorem sameWork_memory (s : State) (m : Memory) : s.SameWork { s with memory := m } :=
  ⟨rfl, rfl, fun _ _ h => h, fun _ h => h, rfl, id, rfl⟩

theorem sameWork_moveSegment (s : State) (k : SlotRef) (g : Segment) (t : Transfer) (parts : List Part)
    (pages : List BackRef) : s.SameWork (s.moveSegment k g t parts pages) := by
  unfold State.moveSegment
  split
  · refine .trans ((sameWork_memory s (s.memory.segmentRead parts).1).trans
      (sameWork_commonEffects _ .read (s.memory.segmentRead parts).2.1)) ?_
    dsimp only
    split
    · exact sameWork_acceptSegment ..
    · exact (calm_haltReply ..).toSameWork
  · refine .trans ((sameWork_memory s (s.memory.segmentWrite parts g.bytes).1).trans
      (sameWork_commonEffects _ .merge (s.memory.segmentWrite parts g.bytes).2.1)) ?_
    dsimp only
    split
    · exact sameWork_acceptSegment ..
    · exact (calm_haltReply ..).toSameWork

/-- A segment's grant presents no access but that of the Copy Engine's first job. -/
def State.PresentsFirstCopy (s t : State) : Prop :=
  s.jobs = [] ∧ t.jobs ≠ [] ∧ ∀ c ∈ t.arbiter.waiting, c ∈ s.arbiter.waiting ∨ c = .copyEngine

/-- A segment's grant presents no access and leaves the copy queue as it is, adds to a copy queue that is not empty, or
makes the first job and presents its copy (R76, R78). -/
def State.GrantPresents (s t : State) : Prop :=
  ((∀ c ∈ t.arbiter.waiting, c ∈ s.arbiter.waiting) ∧ (t.jobs = [] ↔ s.jobs = [])) ∨ s.PresentsFirstCopy t

theorem State.SameWork.presents {s t : State} (h : s.SameWork t) : s.GrantPresents t := Or.inl ⟨h.presented, h.jobs_nil⟩

theorem State.GrantPresents.calm {s t u : State} (h : s.GrantPresents t) (h' : t.SameWork u) : s.GrantPresents u := by
  rcases h with ⟨h1, h2⟩ | ⟨h1, h2, h3⟩
  · exact Or.inl ⟨fun c hc => h1 c (h'.presented c hc), h'.jobs_nil.trans h2⟩
  · exact Or.inr ⟨h1, fun e => h2 (h'.jobs_nil.1 e), fun c hc => h3 c (h'.presented c hc)⟩

theorem State.GrantPresents.after {s t u : State} (h : s.SameWork t) (h' : t.GrantPresents u) : s.GrantPresents u := by
  rcases h' with ⟨h1, h2⟩ | ⟨h1, h2, h3⟩
  · exact Or.inl ⟨fun c hc => h.presented c (h1 c hc), h2.trans h.jobs_nil⟩
  · exact Or.inr ⟨h.jobs_nil.1 h1, h2, fun c hc => (h3 c hc).imp_left (h.presented c)⟩

theorem presents_makeJob (s : State) (kind : JobKind) (source : FrameId) (waiters : List SlotRef) :
    s.GrantPresents (s.makeJob kind source waiters) := by
  rcases makeJob_cases s kind source waiters with ⟨_, h⟩ | ⟨target, rest, phase, _, h⟩ <;> rw [h]
  · exact (State.SameWork.refl s).presents
  · refine State.GrantPresents.calm ?_ (calm_examineFall _).toSameWork
    split
    · next hj => exact Or.inr ⟨hj, by simp, fun c hc => by simpa using hc⟩
    · next hj => exact Or.inl ⟨fun _ hc => hc, by simp [hj]⟩

theorem presents_stopSegment (s : State) (k : SlotRef) (g : Segment) (p : BackRef) (answer : PageAnswer) :
    s.GrantPresents (s.stopSegment k g p answer) := by
  unfold State.stopSegment
  split
  · exact (State.SameWork.refl s).presents
  · exact (calm_haltReply ..).toSameWork.presents
  · exact ((calm_joinWaiters ..).trans (calm_segReply ..)).toSameWork.presents
  · exact ((calm_joinWaiters ..).trans (calm_segReply ..)).toSameWork.presents
  · split
    · exact ((calm_leaveWaiters ..).trans (calm_segReply ..)).toSameWork.presents
    · split
      · exact (calm_haltReply ..).toSameWork.presents
      · exact State.GrantPresents.calm (.after ((calm_leaveWaiters s k).toSameWork.trans (sameWork_setEntry ..))
          (presents_makeJob ..)) (calm_segReply ..).toSameWork

theorem presents_grantSegment (s : State) (i : LinkId) : s.GrantPresents (s.grantSegment i) := by
  unfold State.grantSegment
  split
  · exact (State.SameWork.refl s).presents
  · dsimp only
    have hcalm := (calm_dropSegment s i).toSameWork
    split
    · exact hcalm.presents
    · split_ifs
      · split
        · exact (hcalm.trans (sameWork_moveSegment ..)).presents
        · exact .after hcalm (presents_stopSegment ..)
      · exact (hcalm.trans (calm_haltReply ..).toSameWork).presents

/-- A bound on the grants to come: the clients that wait, and one more for the first copy job. -/
def State.grantsLeft (s : State) : Nat := s.arbiter.waiting.toFinset.card + if s.jobs = [] then 1 else 0

theorem grantsLeft_le (s : State) : s.grantsLeft ≤ 6 := by
  have hall : s.arbiter.waiting.toFinset ⊆ (Client.ring .scrubber).toFinset := by
    intro c _
    rcases c with ⟨⟨⟩⟩ | _ | _ | _ <;> decide
  have hcard := Finset.card_le_card hall
  have h5 : (Client.ring .scrubber).toFinset.card = 5 := by decide
  unfold State.grantsLeft
  split <;> omega

/-- A grant occupies the store, or leaves fewer grants to come. -/
theorem grantsLeft_grant (s : State) (c : Client) (h : c ∈ s.arbiter.waiting) :
    (s.grant c).arbiter.current.isSome = true ∨ (s.grant c).grantsLeft < s.grantsLeft := by
  have hcard : (s.serving c).arbiter.waiting.toFinset.card < s.arbiter.waiting.toFinset.card := by
    refine Finset.card_lt_card (Finset.ssubset_iff_of_subset (fun d hd => ?_) |>.2 ⟨c, by simpa using h, ?_⟩)
    · rw [List.mem_toFinset, mem_serving] at hd
      exact List.mem_toFinset.2 hd.1
    · rw [List.mem_toFinset, mem_serving]; exact fun hx => hx.2 rfl
  have hjobs : (s.serving c).jobs = s.jobs := rfl
  rw [grant_eq]
  by_cases hp : ∀ i, c ≠ .dataPath i
  · rcases runAccess_cases (s.serving c) c hp with ⟨he, _⟩ | ⟨_, _, _, _, he⟩ | ⟨_, _, _, _, he⟩ | ⟨_, _, _, _, he⟩
      <;> rw [he]
    · right; unfold State.grantsLeft; rw [hjobs]; omega
    all_goals exact Or.inl rfl
  · push Not at hp
    obtain ⟨i, rfl⟩ := hp
    right
    change ((s.serving (.dataPath i)).grantSegment i).grantsLeft < _
    unfold State.grantsLeft
    rcases presents_grantSegment (s.serving (.dataPath i)) i with ⟨h1, h2⟩ | ⟨h1, h2, h3⟩
    · have hle := Finset.card_le_card (s := ((s.serving (.dataPath i)).grantSegment i).arbiter.waiting.toFinset)
        (t := (s.serving (.dataPath i)).arbiter.waiting.toFinset) fun d hd => by
          rw [List.mem_toFinset] at hd ⊢; exact h1 d hd
      rw [hjobs] at h2
      simp only [h2]
      omega
    · have hle := Finset.card_le_card (s := ((s.serving (.dataPath i)).grantSegment i).arbiter.waiting.toFinset)
        (t := insert .copyEngine (s.serving (.dataPath i)).arbiter.waiting.toFinset) fun d hd => by
          rw [List.mem_toFinset] at hd
          rw [Finset.mem_insert, List.mem_toFinset]
          exact (h3 d hd).symm
      have hins := Finset.card_insert_le Client.copyEngine (s.serving (.dataPath i)).arbiter.waiting.toFinset
      rw [if_neg h2, if_pos (hjobs ▸ h1)]
      omega

theorem next_mem {a : Arbiter} {c : Client} (h : a.next = some c) : c ∈ a.waiting := by
  simpa using List.find?_some h

theorem next_eq_none {a : Arbiter} (h : a.next = none) : a.waiting = [] := by
  rw [List.eq_nil_iff_forall_not_mem]
  intro c hc
  unfold Arbiter.next at h
  rw [List.find?_eq_none] at h
  refine h c ?_ (by simpa using hc)
  generalize a.lastServed = l
  rcases c with ⟨⟨⟩⟩ | _ | _ | _ <;> rcases l with ⟨⟨⟩⟩ | _ | _ | _ <;> decide

/-- The arbiter at rest: the store is busy or nobody waits (R10). -/
def State.Granted (s : State) : Prop := s.arbiter.current.isSome = true ∨ s.arbiter.waiting = []

theorem arbitrate_granted (n : Nat) : ∀ s : State, s.grantsLeft ≤ n → (s.arbitrate n).Granted := by
  induction n with
  | zero =>
    intro s h
    refine Or.inr ?_
    have : s.arbiter.waiting.toFinset.card = 0 := by unfold State.grantsLeft at h; omega
    change s.arbiter.waiting = []
    simpa using this
  | succ n ih =>
    intro s h
    unfold State.arbitrate
    split
    · next hc => exact Or.inl hc
    · split
      · next hn => exact Or.inr (next_eq_none hn)
      · next c hn =>
        rcases grantsLeft_grant s c (next_mem hn) with hb | hl
        · rw [arbitrate_busy _ _ hb]; exact Or.inl hb
        · exact ih _ (by omega)

/-- What every grant on an idle store keeps, the arbiter keeps. -/
theorem arbitrate_keeps (P : State → Prop)
    (grant : ∀ s c, s.arbiter.current = none → c ∈ s.arbiter.waiting → P s → P (s.grant c)) (n : Nat) :
    ∀ s, P s → P (s.arbitrate n) := by
  induction n with
  | zero => exact fun s h => h
  | succ n ih =>
    intro s h
    unfold State.arbitrate
    split
    · exact h
    · next hc =>
      split
      · exact h
      · next c hn => exact ih _ (grant s c (by simpa using hc) (next_mem hn) h)

/-! ### The end of a step -/

/-- An awaiting message leaves the list before it is taken (R136). -/
theorem calm_takeFirst (s : State) (i : LinkId) (m : Message) (rest : List Message) (h : (s.link i).awaiting = m :: rest) :
    s.Calm (State.onLink { s with freeIndex := s.freeIndex + 1 } i fun l => { l with awaiting := rest }) := by
  refine (calm_fields s _ _ _ (s.freeIndex + 1) _).trans (calm_onLink _ i _ ⟨fun g hg => Or.inl hg, ?_⟩)
  have : (State.link { s with freeIndex := s.freeIndex + 1 } i).awaiting = m :: rest := by
    rw [← h]; cases i <;> rfl
  rw [this]
  exact Nat.le_succ _

/-- The event in which an awaiting message is taken (R136). -/
def State.takeFirst (s : State) (i : LinkId) (m : Message) (rest : List Message) : State :=
  (State.take (State.onLink { s with freeIndex := s.freeIndex + 1 } i fun l => { l with awaiting := rest }) i m
    (s.rxdAtTaking i)).endEvent

/-- Everything one taking at a step's end can do (R136): nothing if no link can take a message, else the oldest message
of a link is taken. -/
theorem drain_cases (s : State) (n : Nat) :
    ((∀ i, (s.link i).canTake = false) ∧ s.drain (n + 1) = s) ∨
    ∃ i m rest, (s.link i).awaiting = m :: rest ∧ s.drain (n + 1) = (s.takeFirst i m rest).drain n := by
  have hnext : ∀ i, s.nextLink = some i → (s.link i).canTake = true := by
    intro i hi
    unfold State.nextLink at hi
    split at hi
    · cases hi
    all_goals
      cases hi
    · assumption
    · assumption
    · split <;> assumption
  cases hi : s.nextLink with
  | none =>
    refine Or.inl ⟨fun i => ?_, by simp [State.drain, hi]⟩
    unfold State.nextLink at hi
    split at hi
    · cases i <;> assumption
    all_goals cases hi
  | some i =>
    cases hm : (s.link i).awaiting with
    | nil => have := hnext i hi; simp [Link.canTake, hm] at this
    | cons m rest =>
      refine Or.inr ⟨i, m, rest, hm, ?_⟩
      simp only [State.drain, hi, hm]
      rfl

/-- What every grant on an idle store and every effect keeps, the end of an event keeps. -/
theorem endEvent_keeps (P : State → Prop)
    (grant : ∀ s c, s.arbiter.current = none → c ∈ s.arbiter.waiting → P s → P (s.grant c))
    (effects : ∀ s t, s.Effects t → P s → P t) (s : State) (h : P s) : P s.endEvent :=
  effects _ _ (calm_settle _).effects (arbitrate_keeps P grant 6 s h)

/-- What every grant on an idle store and every effect keeps, the end of a step keeps. -/
theorem finish_keeps (P : State → Prop)
    (grant : ∀ s c, s.arbiter.current = none → c ∈ s.arbiter.waiting → P s → P (s.grant c))
    (effects : ∀ s t, s.Effects t → P s → P t) (s : State) (h : P s) : P s.finish := by
  have hdrain : ∀ n (s : State), P s → P (s.drain n) := by
    intro n
    induction n with
    | zero => exact fun s h => h
    | succ n ih =>
      intro s h
      rcases drain_cases s n with ⟨_, he⟩ | ⟨i, m, rest, hm, he⟩ <;> rw [he]
      · exact h
      · exact ih _ (endEvent_keeps P grant effects _
          (effects _ _ ((calm_takeFirst s i m rest hm).effects.trans (effects_take ..)) h))
  exact hdrain _ _ (endEvent_keeps P grant effects s h)

/-- What the end of every event establishes, the end of a step establishes. -/
theorem finish_establishes (P : State → Prop) (h : ∀ s : State, P s.endEvent) (s : State) : P s.finish := by
  have hdrain : ∀ n (s : State), P s → P (s.drain n) := by
    intro n
    induction n with
    | zero => exact fun s h => h
    | succ n ih =>
      intro s hs
      rcases drain_cases s n with ⟨_, he⟩ | ⟨i, m, rest, hm, he⟩ <;> rw [he]
      · exact hs
      · exact ih _ (h _)
  exact hdrain _ _ (h s)

theorem endEvent_links (s : State) (i : LinkId) : (s.link i).Quiet (s.endEvent.link i) :=
  endEvent_keeps (fun t => (s.link i).Quiet (t.link i)) (fun t c _ _ h => h.trans (grant_links t c i))
    (fun _ _ he h => h.trans ((effects_orderly he).links i)) s (.refl _)

/-- The number of messages that await intake falls with each taking. -/
theorem takeFirst_awaiting (s : State) (i : LinkId) (m : Message) (rest : List Message)
    (h : (s.link i).awaiting = m :: rest) :
    (s.takeFirst i m rest).link0.awaiting.length + (s.takeFirst i m rest).link1.awaiting.length <
      s.link0.awaiting.length + s.link1.awaiting.length := by
  have hq : ∀ j, ((s.takeFirst i m rest).link j).awaiting.length ≤
      ((s.onLink i fun l => { l with awaiting := rest }).link j).awaiting.length := by
    intro j
    have hstart : (State.onLink { s with freeIndex := s.freeIndex + 1 } i fun l => { l with awaiting := rest }).link j =
        (s.onLink i fun l => { l with awaiting := rest }).link j := by cases i <;> cases j <;> rfl
    have := ((effects_orderly (effects_take (State.onLink { s with freeIndex := s.freeIndex + 1 } i
      fun l => { l with awaiting := rest }) i m (s.rxdAtTaking i))).links j).trans (endEvent_links _ j)
    rw [hstart] at this
    exact this.awaiting
  have h0 := hq .link0
  have h1 := hq .link1
  cases i <;> simp [State.onLink, State.setLink, State.link] at h0 h1 h <;> rw [h] <;> simp <;> omega

theorem drain_taken (n : Nat) : ∀ s : State, s.link0.awaiting.length + s.link1.awaiting.length ≤ n →
    ∀ i, ((s.drain n).link i).canTake = false := by
  induction n with
  | zero =>
    intro s h i
    have h0 : s.link0.awaiting = [] := List.length_eq_zero_iff.1 (by omega)
    have h1 : s.link1.awaiting = [] := List.length_eq_zero_iff.1 (by omega)
    cases i <;> simp [State.drain, State.link, Link.canTake, h0, h1]
  | succ n ih =>
    intro s h
    rcases drain_cases s n with ⟨ht, he⟩ | ⟨i, m, rest, hm, he⟩ <;> rw [he]
    · exact ht
    · exact ih _ (by have := takeFirst_awaiting s i m rest hm; omega)

/-- The end of a step leaves the part at rest, every block having had its work in hand. -/
theorem finish_stable {s : State} (h : s.Working) : s.finish.Stable := by
  have hw : s.finish.Working := finish_keeps State.Working (fun s c hc _ hs => grant_working hs hc c)
    (fun s t he hs => hs.of_orderly (effects_orderly he)) s h
  have hend : (∀ i, (s.finish.link i).settle = s.finish.link i) ∧ s.finish.Granted := by
    refine finish_establishes (fun t => (∀ i, (t.link i).settle = t.link i) ∧ t.Granted) (fun x => ⟨fun i => ?_, ?_⟩) s
    · unfold State.endEvent; rw [link_settle, settle_settle]
    · exact arbitrate_granted 6 x (grantsLeft_le x)
  exact ⟨hend.1, hend.2, drain_taken _ _ le_rfl, hw.clearer, hw.copier, hw.checker, hw.idle⟩

end Sys2Proof.Machine
end

section
/-! SUPPORT. Everything one command can do to a state: a change the part's rules do not read, a storage fault, a reset, a
completion, or effects that end as every event does. -/

namespace Sys2Proof.Machine

/-- Nothing changes but the receivers, the counts of discarded messages, the bit rates and the level of RESET_N. -/
structure State.Still (s t : State) : Prop extends s.Calm t where
  arbiter : t.arbiter = s.arbiter
  scrub : t.scrub = s.scrub
  heldJobs : t.jobs = s.jobs
  lines : ∀ i, ∃ rx discarded rate, t.link i = { s.link i with rx := rx, discarded := discarded, rate := rate }

/-- A change of a link's receiver and count of discarded messages. -/
theorem still_onLink (s : State) (i : LinkId) (c : Link → Link) (rx : Receiver) (discarded : Nat)
    (h : c (s.link i) = { s.link i with rx := rx, discarded := discarded }) : s.Still (s.onLink i c) where
  toCalm := calm_onLink_of_eq s i c (by rw [h]) (by rw [h])
  arbiter := by simp
  scrub := by simp
  heldJobs := by simp
  lines j := by
    rw [link_onLink]
    split
    · next hj => exact hj ▸ ⟨_, _, _, h⟩
    · exact ⟨_, _, _, rfl⟩

theorem still_discardFrame (s : State) (i : LinkId) (rx : Receiver) : s.Still (s.discardFrame i rx) :=
  still_onLink s i _ rx _ rfl

theorem still_withRx (s : State) (i : LinkId) (c : Link → Link) (rx : Receiver)
    (h : c (s.link i) = { s.link i with rx := rx }) :
    s.Still (s.onLink i c) := still_onLink s i c rx _ h

theorem State.Still.refl (s : State) : s.Still s := ⟨.refl s, rfl, rfl, rfl, fun _ => ⟨_, _, _, rfl⟩⟩

/-- The release of RESET_N (R115, R126). -/
theorem still_release (s : State) (low : Bool) (rate0 rate1 : BitVec 2) (rx0 rx1 : Receiver) :
    s.Still { s with
      resetLow := low
      link0 := { s.link0 with rate := rate0, rx := rx0 }
      link1 := { s.link1 with rate := rate1, rx := rx1 } } where
  frames := rfl
  clearQueue := rfl
  freeQueue := rfl
  spaces := rfl
  lowMark := rfl
  retired := rfl
  discretionary := rfl
  interval := rfl
  threshold := rfl
  jobs := rfl
  current := rfl
  waiting _ _ h := h
  presented _ h := h
  engine := rfl
  checkQueue := id
  walkTimer := rfl
  memory := rfl
  links i := by cases i <;> exact .of_eq rfl rfl
  arbiter := rfl
  scrub := rfl
  heldJobs := rfl
  lines i := by cases i <;> exact ⟨_, _, _, rfl⟩

/-! ### The resets -/

/-- The part at power-on, before the Clearer begins (R24, R44, R69, R93, R114, R126). -/
def State.poweredOn (s : State) (pins0 pins1 : LinkPins) : State :=
  { resetLow := false
    memory := { cells := [], damage := [], undefinedSince := Vector.replicate 4096 (some s.freeIndex) }
    arbiter := ⟨none, [], .scrubber⟩
    frames := Vector.replicate 4096 FrameRecord.initial
    clearQueue := List.finRange 4096, freeQueue := [], supply := .normal, lowMark := 64, waiters := []
    spaces := Vector.replicate 16 none, jobs := [], scrub := Scrubber.initial
    link0 := Link.initial pins0.rate pins0.rxdLow, link1 := Link.initial pins1.rate pins1.rxdLow
    freeIndex := s.freeIndex + 1, pending := s.pending }

theorem execPowerOn_eq (s : State) (pins0 pins1 : LinkPins) :
    execPowerOn pins0 pins1 s = .next (s.poweredOn pins0 pins1).kickClearer.finish := rfl

/-- The part at RESET_N, before the Clearer begins (R11, R24, R103, R104). -/
def State.resetHeld (s : State) : State :=
  { resetLow := true
    memory := s.memory.forget ⟨⟨s.frames.toList.map fun r => r.state = .retired⟩, by simp⟩ s.freeIndex
    arbiter := ⟨none, [], .scrubber⟩
    frames := ⟨⟨s.frames.toList.map FrameRecord.afterResetN⟩, by simp⟩
    clearQueue := (List.finRange 4096).filter fun f => (s.frame f).state ≠ .retired
    freeQueue := [], supply := .normal, lowMark := 64, waiters := [], spaces := Vector.replicate 16 none, jobs := []
    scrub := { Scrubber.initial with retired := s.scrub.retired, discretionary := s.scrub.discretionary }
    link0 := Link.initial s.link0.rate false, link1 := Link.initial s.link1.rate false
    freeIndex := s.freeIndex + 1, pending := s.pending }

theorem execResetN_eq (s : State) : execResetN s = .next s.resetHeld.kickClearer.finish := rfl

theorem frame_poweredOn (s : State) (pins0 pins1 : LinkPins) (f : FrameId) :
    (s.poweredOn pins0 pins1).frame f = .initial := by
  simp [State.frame, State.poweredOn, Vector.get_eq_getElem]

theorem frame_resetHeld (s : State) (f : FrameId) : s.resetHeld.frame f = (s.frame f).afterResetN := by
  simp [State.frame, State.resetHeld, Vector.get_eq_getElem]

theorem space_poweredOn (s : State) (pins0 pins1 : LinkPins) (sp : SpaceId) :
    (s.poweredOn pins0 pins1).space sp = none := by
  simp [State.space, State.poweredOn, Vector.get_eq_getElem]

theorem space_resetHeld (s : State) (sp : SpaceId) : s.resetHeld.space sp = none := by
  simp [State.space, State.resetHeld, Vector.get_eq_getElem]

/-- What one command can make of a state. -/
inductive State.Event (s : State) : State → Prop
  | still {t : State} (h : s.Still t) : s.Event t
  | struck (f : FrameId) (w : WordId) (b : BitId) : s.Event { s with memory := s.memory.strike f w b }
  | worked {t : State} (h : s.Effects t) : s.Event t.finish
  /-- A sound message behind a SEG in processing awaits intake (R136). -/
  | awaited {t : State} (i : LinkId) (m : Message) (h : s.Calm t) :
    s.Event (t.onLink i fun l => { l with awaiting := l.awaiting ++ [m] }).finish
  | poweredOn (pins0 pins1 : LinkPins) : s.Event (s.poweredOn pins0 pins1).kickClearer.finish
  | reset : s.Event s.resetHeld.kickClearer.finish
  | cleared (f : FrameId) (h : s.arbiter.current = some (.clear f)) : s.Event (s.endAccess.completeClear f).finish
  | copied (source target : FrameId) (errors : List ErrorEvent) (h : s.arbiter.current = some (.copy source target errors)) :
    s.Event (s.endAccess.completeCopy errors).finish
  | checked (f : FrameId) (errors : List ErrorEvent) (h : s.arbiter.current = some (.check f errors)) :
    s.Event (s.endAccess.completeCheck errors).finish

section

variable {s : State}

theorem event_handOver (s : State) (i : LinkId) (m : Message) : s.Event (s.handOver i m) := by
  have heard : s.Still (s.heard i) := still_withRx s i _ Receiver.hunting rfl
  unfold State.handOver
  rw [← heard_eq]
  dsimp only
  split
  · refine .still (t := (s.heard i).onLink i Link.countDiscard) ?_
    rw [heard_eq, onLink_onLink]
    exact still_discardFrame s i Receiver.hunting
  · have woken : s.Calm ((s.heard i).wakeLink i) := heard.toCalm.trans (calm_wakeLink _ i)
    split
    · exact .awaited i m woken
    · exact .worked (woken.effects.trans (effects_take ..))

theorem event_receive (s : State) (i : LinkId) (m : Message) : s.Event (s.receive i m) := by
  unfold State.receive
  split
  · exact event_handOver s i m
  · exact .still (.refl s)

/-- A message row is its message's reception (R118). -/
theorem exec_message {c : Instr} {i : LinkId} {m : Message} (h : messageOf c = some (i, m)) (s : State) :
    exec c s = .next (s.receive i m) := by
  cases c <;> simp only [messageOf, reduceCtorEq, Option.some.injEq, Prod.mk.injEq] at h <;>
    (obtain ⟨rfl, rfl⟩ := h; rfl)

theorem event_messageSent (s : State) (i : LinkId) (rxdLow : Bool) {t : State} (h : execMessageSent i rxdLow s = .next t) :
    s.Event t := by
  unfold execMessageSent at h
  split at h <;> cases h
  · exact .still (.refl s)
  · next m _ =>
    dsimp only
    split
    · exact .worked ((calm_onLink_of_eq s i _ rfl rfl).trans (calm_linkReset ..)).effects
    · exact .worked (calm_onLink_of_eq s i _ rfl rfl).effects

theorem event_byteReceived (s : State) (i : LinkId) (b : Byte) {t : State} (h : execByteReceived i b s = .next t) :
    s.Event t := by
  unfold execByteReceived at h
  split_ifs at h
  · split at h <;> cases h
    · exact .still (still_withRx s i _ _ rfl)
    · exact .still (still_discardFrame ..)
    · exact .still (still_discardFrame ..)
    · exact event_handOver ..
  · cases h; exact .still (.refl s)

theorem event_rxdReturnsHigh (s : State) (i : LinkId) {t : State} (h : execRxdReturnsHigh i s = .next t) : s.Event t := by
  unfold execRxdReturnsHigh at h
  split_ifs at h <;> cases h
  · exact .still (.refl s)
  · exact .still (still_discardFrame ..)
  · exact .still (still_withRx s i _ _ rfl)

theorem event_lineBreak (s : State) (i : LinkId) {t : State} (h : execLineBreak i s = .next t) : s.Event t := by
  unfold execLineBreak at h
  split_ifs at h <;> cases h
  · exact .worked ((calm_linkReset s i true).trans (calm_onLink_of_eq _ i _ rfl rfl)).effects
  · exact .still (.refl s)

theorem event_lenDiscard (s : State) (i : LinkId) (len : Byte) {t : State} (h : execLinkFrameLenDiscard i len s = .next t) :
    s.Event t := by
  unfold execLinkFrameLenDiscard at h
  split_ifs at h
  · split at h <;> cases h
    · exact .still (still_discardFrame ..)
    · exact .still (.refl s)
  · cases h; exact .still (.refl s)

theorem event_checkDiscard (s : State) (i : LinkId) (b : Byte) {t : State} (h : execLinkFrameCheckDiscard i b s = .next t) :
    s.Event t := by
  unfold execLinkFrameCheckDiscard at h
  split_ifs at h
  · split at h <;> cases h
    · exact .still (still_discardFrame ..)
    · exact .still (.refl s)
  · cases h; exact .still (.refl s)

theorem event_stopBitLow (s : State) (i : LinkId) {t : State} (h : execStopBitLow i s = .next t) : s.Event t := by
  unfold execStopBitLow at h
  split_ifs at h <;> cases h
  · exact .still (still_withRx s i _ _ rfl)
  · exact .still (.refl s)

theorem event_walkTimerExpiry (s : State) {t : State} (h : execWalkTimerExpiry s = .next t) : s.Event t := by
  unfold execWalkTimerExpiry at h
  split_ifs at h <;> cases h
  · exact .worked (.single (effect_takeWork s s.scrub.checkQueue .due))
  · exact .still (.refl s)

theorem event_clearCompletion (s : State) {t : State} (h : execClearCompletion s = .next t) : s.Event t := by
  unfold execClearCompletion at h
  split at h <;> cases h
  · next f hc => exact .cleared f hc
  · exact .still (.refl s)

theorem event_copyCompletion (s : State) {t : State} (h : execCopyCompletion s = .next t) : s.Event t := by
  unfold execCopyCompletion at h
  split at h <;> cases h
  · next a b es hc => exact .copied a b es hc
  · exact .still (.refl s)

theorem event_checkCompletion (s : State) {t : State} (h : execCheckCompletion s = .next t) : s.Event t := by
  unfold execCheckCompletion at h
  split at h <;> cases h
  · next f es hc => exact .checked f es hc
  · exact .still (.refl s)

/-- Every command makes of a state what `State.Event` names. -/
theorem exec_event (c : Instr) (s t : State) (h : exec c s = .next t) : s.Event t := by
  cases hm : messageOf c with
  | some p => rw [exec_message hm] at h; cases h; exact event_receive ..
  | none =>
    cases c with
    | powerOn p0 p1 => rw [← Host.Outcome.next.inj h]; exact .poweredOn p0 p1
    | resetN => rw [← Host.Outcome.next.inj h]; exact .reset
    | resetNRelease p0 p1 =>
      change Host.Outcome.next _ = _ at h
      split_ifs at h <;> cases h
      · exact .still (still_release ..)
      · exact .still (.refl s)
    | rxdReturnsHigh i => exact event_rxdReturnsHigh s i h
    | lineBreak i => exact event_lineBreak s i h
    | interByteGapExpiry i =>
      change Host.Outcome.next _ = _ at h
      split_ifs at h <;> cases h
      · exact .still (still_discardFrame ..)
      · exact .still (.refl s)
    | linkFrameLenDiscard i len => exact event_lenDiscard s i len h
    | linkFrameCheckDiscard i b => exact event_checkDiscard s i b h
    | generalPlacesFullDiscard i =>
      change Host.Outcome.next _ = _ at h
      split_ifs at h <;> cases h
      · exact .still (still_discardFrame ..)
      · exact .still (.refl s)
    | messageSent i low => exact event_messageSent s i low h
    | dormancyTimerExpiry i => cases h; exact .worked (calm_goDormant s i).effects
    | slotIdleTimerExpiry i k => cases h; exact .worked (calm_expireSlot s (i, k)).effects
    | waitFreeTimerExpiry i tag => cases h; exact .worked (calm_expireWaiter s i tag).effects
    | walkTimerExpiry => exact event_walkTimerExpiry s h
    | clearCompletion => exact event_clearCompletion s h
    | copyCompletion => exact event_copyCompletion s h
    | checkCompletion => exact event_checkCompletion s h
    | storageFault f w b => cases h; exact .struck f w b
    | byteReceived i b => exact event_byteReceived s i b h
    | stopBitLow i => exact event_stopBitLow s i h
    | _ => cases hm

end

/-- The queue of commands is the model's own, which no rule reads (log 6). -/
theorem still_pending (s : State) (rest : List Instr) : s.Still { s with pending := rest } :=
  ⟨calm_fields s _ _ _ _ rest, rfl, rfl, rfl, fun i => by cases i <;> exact ⟨_, _, _, rfl⟩⟩

/-- A property that a change of what no rule reads keeps, and that every event keeps, is kept by every step. -/
theorem step_keeps (P : State → Prop) (still : ∀ s t : State, s.Still t → P s → P t)
    (event : ∀ s t : State, s.Event t → P s → P t) (s t : State) (hs : P s) (h : step s = .next t) : P t := by
  unfold step at h
  split at h
  · cases h; exact hs
  · exact event _ t (exec_event _ _ _ h) (still s _ (still_pending s _) hs)

end Sys2Proof.Machine
end

section
/-! THEOREMS. Every step leaves the part at rest (R10, R26, R76, R94, R125, R136, R184, R187). -/

namespace Sys2Proof.Machine

variable {s t : State}

/-! ### A change that no rule reads -/

/-- The transmitter reads neither the receiver nor the count of discarded messages nor the bit rate. -/
theorem settle_lines (l : Link) (rx : Receiver) (discarded : Nat) (rate : BitVec 2) :
    { l with rx := rx, discarded := discarded, rate := rate }.settle =
      { l.settle with rx := rx, discarded := discarded, rate := rate } := by
  obtain ⟨rate', rx', discarded', sending, queue, state, mask, interval, timeout, dt, deferred, awaiting, segment, slots,
    notices, attn⟩ := l
  have htransmit : ∀ a b c, Link.transmit ⟨a, b, c, sending, queue, state, mask, interval, timeout, dt, deferred, awaiting,
      segment, slots, notices, attn⟩ = { Link.transmit ⟨rate', rx', discarded', sending, queue, state, mask, interval,
      timeout, dt, deferred, awaiting, segment, slots, notices, attn⟩ with rate := a, rx := b, discarded := c } := by
    intro a b c
    unfold Link.transmit Link.nextNotice Link.masks
    dsimp only
    split
    · rfl
    · cases queue with
      | cons m rest => rfl
      | nil =>
        dsimp only
        split
        · split <;> rfl
        · rfl
  unfold Link.settle
  dsimp only
  rw [htransmit rate rx discarded]
  rfl

theorem still_stable (h : s.Still t) (hs : s.Stable) : t.Stable where
  settled i := by
    obtain ⟨rx, discarded, rate, hl⟩ := h.lines i
    rw [hl, settle_lines, hs.settled i]
  store := by rw [h.arbiter]; exact hs.store
  taken i := by
    obtain ⟨rx, discarded, rate, hl⟩ := h.lines i
    rw [hl]
    exact hs.taken i
  clearer := by rw [h.clearQueue, h.arbiter]; exact hs.clearer
  copier := by rw [h.heldJobs, h.arbiter]; exact hs.copier
  checker := by rw [h.scrub, h.arbiter]; exact hs.checker
  idleEngine := by rw [h.scrub]; exact hs.idleEngine

theorem State.Stable.working (h : s.Stable) : s.Working := ⟨h.clearer, h.copier, h.checker, h.idleEngine⟩

theorem State.Working.onLink (h : s.Working) (i : LinkId) (c : Link → Link) : (s.onLink i c).Working := by
  constructor
  · simpa [State.ClearerServed] using h.clearer
  · simpa [State.CopierServed] using h.copier
  · simpa [State.CheckerServed] using h.checker
  · simpa [State.EngineServed] using h.idle

/-- The Clearer begins on a part with no copy jobs, no check and no visit due. -/
theorem kickClearer_working (hj : s.jobs = []) (hs : s.scrub.engine = .idle) (hq : s.scrub.checkQueue = [])
    (hw : s.scrub.walkTimer ≠ .due) : s.kickClearer.Working :=
  ⟨kickClearer_served _, kickClearer_copier _ (Or.inl hj), kickClearer_checker _ (Or.inl hs),
    fun _ => by rw [kickClearer_scrub]; exact ⟨hq, hw⟩⟩

/-! ### The completion of a clear -/

theorem sameWork_retireFrame (s : State) (f : FrameId) (d : Bool) : s.SameWork (s.retireFrame f d) := by
  refine .trans ⟨?_, ?_, ?_, ?_, ?_, ?_, ?_⟩ ((sameWork_setFrame _ f _).trans (calm_raiseBoth ..).toSameWork)
  exacts [rfl, rfl, fun _ _ h => h, fun _ h => h, rfl, id, rfl]

theorem sameWork_makeFree (s : State) (f : FrameId) : s.SameWork (s.makeFree f) := by
  refine .trans ⟨?_, ?_, ?_, ?_, ?_, ?_, ?_⟩ ((sameWork_setFrame _ f _).trans (calm_examineRise _).toSameWork)
  exacts [rfl, rfl, fun _ _ h => h, fun _ h => h, rfl, id, rfl]

theorem sameWork_resolveCleared (s : State) (f : FrameId) : s.SameWork (s.resolveCleared f) := by
  unfold State.resolveCleared
  dsimp only
  split_ifs
  · exact sameWork_retireFrame ..
  · exact sameWork_retireFrame ..
  · exact sameWork_makeFree ..

/-- What the completion of a clear leaves before the Clearer turns to the next frame (R27, R110, R41). -/
def State.examinedClear (s : State) (f : FrameId) : State :=
  let resolved := (State.resolveCleared { s with clearQueue := s.clearQueue.erase f } f).answerRetireWait f
  if (resolved.frame f).state = FrameState.free then resolved.examineWaiters else resolved

theorem completeClear_eq (s : State) (f : FrameId) : s.completeClear f = (s.examinedClear f).kickClearer := rfl

/-- After the frame's resolution only requests are answered. -/
theorem calm_examinedClear (s : State) (f : FrameId) :
    (State.resolveCleared { s with clearQueue := s.clearQueue.erase f } f).Calm (s.examinedClear f) := by
  unfold State.examinedClear
  dsimp only
  split
  · exact (calm_answerRetireWait ..).trans (calm_examineWaiters _)
  · exact calm_answerRetireWait ..

theorem completeClear_working (h : s.Working) (f : FrameId) (hc : s.arbiter.current = some (.clear f)) :
    (s.endAccess.completeClear f).Working := by
  have hcopier : s.endAccess.CopierServed := by
    rcases h.copier with hj | ⟨a, b, es, ha⟩ | hw
    · exact Or.inl hj
    · rw [hc] at ha; cases ha
    · exact Or.inr (Or.inr hw)
  have hchecker : s.endAccess.CheckerServed := by
    rcases h.checker with hj | ⟨a, es, ha⟩ | hw
    · exact Or.inl hj
    · rw [hc] at ha; cases ha
    · exact Or.inr (Or.inr hw)
  have erased : s.endAccess.SameWork { s.endAccess with clearQueue := s.endAccess.clearQueue.erase f } :=
    ⟨rfl, rfl, fun _ _ h => h, fun _ h => h, rfl, id, rfl⟩
  have work := (erased.trans (sameWork_resolveCleared _ f)).trans (calm_examinedClear s.endAccess f).toSameWork
  rw [completeClear_eq]
  refine ⟨kickClearer_served _, kickClearer_copier _ (work.copier hcopier),
    kickClearer_checker _ (work.checker hchecker), ?_⟩
  intro hi
  rw [kickClearer_scrub] at hi ⊢
  exact work.idle (s := s.endAccess) h.idle hi

/-! ### The completion of a copy -/

theorem orderly_resolvePrivate (s : State) (j : CopyJob) (p : BackRef) (bad : Bool) :
    s.Orderly (s.resolvePrivate j p bad) := by
  unfold State.resolvePrivate
  dsimp only
  have dropped : s.Orderly ((s.release j.target).clearCopyPending p) :=
    (orderly_release ..).trans (orderly_clearCopyPending ..)
  split_ifs
  · exact dropped.trans (calm_failWaiters ..).orderly
  · exact dropped.trans (calm_slotReady ..).orderly
  · exact dropped.trans (calm_slotReady ..).orderly
  · refine ((((orderly_setFrame s j.source _ ?_).trans (orderly_setFrame _ j.target _ ?_)).trans (orderly_retarget ..)).trans
      (orderly_clearCopyPending ..)).trans (calm_slotReady ..).orderly
    exacts [nofun, nofun]

theorem orderly_carry (s : State) (j : CopyJob) : s.Orderly (s.carry j) := by
  unfold State.carry
  dsimp only
  refine .trans ?_ (orderly_setFrame _ j.source _ ?_)
  · split
    · exact orderly_release ..
    · refine (orderly_foldl s _ _ fun x p => orderly_retarget x j.target p).trans (orderly_setFrame _ j.target _ ?_)
      nofun
  · nofun

theorem orderly_resolveMove (s : State) (j : CopyJob) (requester : Option (LinkId × Byte)) (bad : Bool) :
    s.Orderly (s.resolveMove j requester bad) := by
  have answered : ∀ (x : State) status, x.Orderly ((x.slotReady j.waiters).answerRequester requester status j.source) :=
    fun x status => ((calm_slotReady ..).trans (calm_answerRequester ..)).orderly
  unfold State.resolveMove
  dsimp only
  split_ifs
  · exact ((((orderly_clearMoving ..).trans (orderly_release ..))).trans (answered _ _)).trans (orderly_deferredRelease ..)
  · exact ((((orderly_carry ..).trans (orderly_clearMoving ..)).trans (orderly_retireFrame ..))).trans (answered _ _)
  · refine (((orderly_carry s j).trans (orderly_setFrame _ j.source
      { (s.carry j).frame j.source with moving := false, retirePending := false } id)).trans
          (orderly_release ..)).trans (answered _ _)

theorem orderly_resolvePoisonedTarget (s : State) (j : CopyJob) : s.Orderly (s.resolvePoisonedTarget j) := by
  unfold State.resolvePoisonedTarget
  dsimp only
  refine (orderly_release s j.target).trans ?_
  split
  · exact (orderly_clearCopyPending ..).trans (calm_slotReady ..).orderly
  · exact ((orderly_clearMoving ..).trans ((calm_slotReady ..).trans (calm_answerRequester ..)).orderly).trans
      (orderly_deferredRelease ..)

/-- A PRIVATE job's FREE source is dealt with before the job is resolved (R76). -/
def State.freeSourceResolved (s : State) (j : CopyJob) : State :=
  match j.kind with
  | .privateCopy _ => if (s.frame j.source).state = FrameState.free then s.resolveFree j.source else s
  | .move _ => s

/-- A copy job resolved, its FREE source dealt with (R76). -/
def State.resolveDealt (s : State) (j : CopyJob) (bad : Bool) : State :=
  if (s.frame j.target).poisoned then s.resolvePoisonedTarget j
  else match j.kind with
    | .privateCopy p => s.resolvePrivate j p bad
    | .move requester => s.resolveMove j requester bad

theorem resolveJob_eq (s : State) (j : CopyJob) (bad : Bool) :
    s.resolveJob j bad = (s.freeSourceResolved j).resolveDealt j bad := by
  unfold State.resolveJob State.freeSourceResolved State.resolveDealt
  rcases j.kind with p | requester <;> rfl

theorem orderly_freeSourceResolved (s : State) (j : CopyJob) : s.Orderly (s.freeSourceResolved j) := by
  unfold State.freeSourceResolved
  split
  · split
    · exact orderly_resolveFree ..
    · exact .refl s
  · exact .refl s

theorem orderly_resolveDealt (s : State) (j : CopyJob) (bad : Bool) : s.Orderly (s.resolveDealt j bad) := by
  unfold State.resolveDealt
  split
  · exact orderly_resolvePoisonedTarget ..
  · split
    · exact orderly_resolvePrivate ..
    · exact orderly_resolveMove ..

theorem orderly_resolveJob (s : State) (j : CopyJob) (bad : Bool) : s.Orderly (s.resolveJob j bad) := by
  rw [resolveJob_eq]
  exact (orderly_freeSourceResolved ..).trans (orderly_resolveDealt ..)

/-- What the next job's start changes: the head's phase, and the copy presented (R76). -/
theorem startNextJob_cases (s : State) : s.startNextJob = s ∨
    ∃ jobs, jobs.map CopyJob.core = s.jobs.map CopyJob.core ∧
      s.startNextJob = State.present { s with jobs := jobs } .copyEngine := by
  unfold State.startNextJob
  split
  · exact Or.inl rfl
  · next j rest hj => exact Or.inr ⟨_, by rw [hj]; rfl, rfl⟩

theorem orderly_startNextJob (s : State) : s.Orderly s.startNextJob := by
  rcases startNextJob_cases s with he | ⟨jobs, hj, he⟩ <;> rw [he]
  · exact .refl s
  · exact (calm_jobs s jobs hj).orderly.trans (orderly_present ..)

theorem startNextJob_copier (s : State) : s.startNextJob.CopierServed := by
  unfold State.startNextJob
  split
  · next hj => exact Or.inl hj
  · exact Or.inr (Or.inr (by simp))

theorem completeCopy_cons (s : State) (errors : List ErrorEvent) {j : CopyJob} {rest : List CopyJob}
    (h : s.jobs = j :: rest) :
    s.completeCopy errors = (((State.commonEffects { s with jobs := rest } .copy errors).resolveJob j
      (anyUncorrectable errors))).startNextJob := by
  unfold State.completeCopy
  rw [h]

theorem completeCopy_working (h : s.Working) {a b : FrameId} {errors : List ErrorEvent}
    (hc : s.arbiter.current = some (.copy a b errors)) : (s.endAccess.completeCopy errors).Working := by
  have hclearer : s.endAccess.ClearerServed := by
    rcases h.clearer with hq | hx | hw
    · exact Or.inl hq
    · simp [Arbiter.clearing, hc] at hx
    · exact Or.inr (Or.inr hw)
  have hchecker : s.endAccess.CheckerServed := by
    rcases h.checker with hj | ⟨a, es, ha⟩ | hw
    · exact Or.inl hj
    · rw [hc] at ha; cases ha
    · exact Or.inr (Or.inr hw)
  cases hj : s.endAccess.jobs with
  | nil =>
    have he : s.endAccess.completeCopy errors = s.endAccess := by unfold State.completeCopy; rw [hj]
    rw [he]
    exact ⟨hclearer, Or.inl hj, hchecker, h.idle⟩
  | cons j rest =>
    rw [completeCopy_cons _ _ hj]
    have order := ((orderly_commonEffects { s.endAccess with jobs := rest } .copy errors).trans
      (orderly_resolveJob _ j (anyUncorrectable errors))).trans (orderly_startNextJob _)
    exact ⟨order.clearer hclearer, startNextJob_copier _, order.checker hchecker, order.idle h.idle⟩

/-! ### The completion of a check -/

theorem orderly_endWork (s : State) (f : FrameId) (work : CheckWork) (errors : List ErrorEvent) :
    s.Orderly (s.endWork f work errors) := by
  unfold State.endWork
  split
  · refine orderly_scrub s _ ?_ ?_ ?_
    exacts [rfl, id, fun h => absurd h (restartedTimer_ne_due _)]
  · refine .trans (orderly_scrub s _ ?_ ?_ ?_) (calm_answerCheckOk ..).orderly
    exacts [rfl, fun h => by simp [h], id]
  · exact .refl s

/-- What a check leaves before the Scrubber takes its next work (R98). -/
def State.endedCheck (s : State) (f : FrameId) (work : CheckWork) (errors : List ErrorEvent) : State :=
  ((State.commonEffects { s with scrub := { s.scrub with engine := .idle } }
    work.finder errors).consequence f).endWork f work
    errors

theorem completeCheck_busy (s : State) (errors : List ErrorEvent) {f : FrameId} {work : CheckWork}
    (h : s.scrub.engine = .busy f work) : s.completeCheck errors = (s.endedCheck f work errors).takeWork := by
  unfold State.completeCheck
  rw [h]
  rfl

theorem orderly_endedCheck (s : State) (f : FrameId) (work : CheckWork) (errors : List ErrorEvent) :
    State.Orderly { s with scrub := { s.scrub with engine := .idle } } (s.endedCheck f work errors) :=
  ((orderly_commonEffects ..).trans (orderly_consequence ..)).trans (orderly_endWork ..)

theorem completeCheck_working (h : s.Working) {a : FrameId} {errors : List ErrorEvent}
    (hc : s.arbiter.current = some (.check a errors)) : (s.endAccess.completeCheck errors).Working := by
  have hclearer : s.endAccess.ClearerServed := by
    rcases h.clearer with hq | hx | hw
    · exact Or.inl hq
    · simp [Arbiter.clearing, hc] at hx
    · exact Or.inr (Or.inr hw)
  have hcopier : s.endAccess.CopierServed := by
    rcases h.copier with hj | ⟨a, b, es, ha⟩ | hw
    · exact Or.inl hj
    · rw [hc] at ha; cases ha
    · exact Or.inr (Or.inr hw)
  cases he : s.endAccess.scrub.engine with
  | idle =>
    have hs : s.endAccess.completeCheck errors = s.endAccess := by unfold State.completeCheck; rw [he]
    rw [hs]
    exact ⟨hclearer, hcopier, Or.inl he, h.idle⟩
  | busy f work =>
    rw [completeCheck_busy _ _ he]
    have order := (orderly_endedCheck s.endAccess f work errors).trans (orderly_takeWork _)
    exact ⟨order.clearer hclearer, order.copier hcopier, order.checker (Or.inl rfl), takeWork_served _⟩

/-! ### Every step -/

theorem link_memory (s : State) (m : Memory) (i : LinkId) : State.link { s with memory := m } i = s.link i := by
  cases i <;> rfl

theorem event_stable (h : s.Event t) (hs : s.Stable) : t.Stable := by
  have work := hs.working
  cases h with
  | still h => exact still_stable h hs
  | struck f w b =>
    exact ⟨fun i => by rw [link_memory]; exact hs.settled i, hs.store, fun i => by rw [link_memory]; exact hs.taken i,
      hs.clearer, hs.copier, hs.checker, hs.idleEngine⟩
  | worked h => exact finish_stable (work.of_orderly (effects_orderly h))
  | awaited i m h => exact finish_stable ((work.of_orderly h.orderly).onLink i _)
  | poweredOn pins0 pins1 =>
    refine finish_stable (kickClearer_working ?_ ?_ ?_ ?_)
    exacts [rfl, rfl, rfl, nofun]
  | reset =>
    refine finish_stable (kickClearer_working ?_ ?_ ?_ ?_)
    exacts [rfl, rfl, rfl, nofun]
  | cleared f hc => exact finish_stable (completeClear_working work f hc)
  | copied a b es hc => exact finish_stable (completeCopy_working work hc)
  | checked f es hc => exact finish_stable (completeCheck_working work hc)

/-- Settles O4: each block with work has it in hand after every event, and what ends a step then leaves the part at rest. -/
theorem stepKeepsStable : Obligations.StepKeepsStable :=
  fun s t hs h => step_keeps State.Stable (fun _ _ => still_stable) (fun _ _ => event_stable) s t hs h

end Sys2Proof.Machine
end

section
/-! THEOREMS. Every step keeps the counts, sizes and settings of the part in their ranges (R13, R14, R46, R75, R104,
R144). -/

namespace Sys2Proof.Machine

variable {s t : State}

/-! ### What the Scrubber does to a FREE or HELD frame -/

theorem effects_resolveFree (s : State) (f : FrameId) (hf : (s.frame f).state = .free) : s.Effects (s.resolveFree f) := by
  unfold State.resolveFree
  dsimp only
  split
  · exact .single (.retired s f false hf nofun)
  · split
    · split
      · next hd => exact .single (.retired s f true hf fun _ => hd)
      · exact .single (.flagged s f false)
    · exact .refl

theorem effects_consequence (s : State) (f : FrameId) : s.Effects (s.consequence f) := by
  unfold State.consequence
  dsimp only
  split
  · next hf => exact effects_resolveFree s f hf
  · split
    · exact .refl
    · split
      · split
        · next hm => exact .single (.moved s f none hm)
        · exact .refl
      · exact .single (.flagged s f false)
  · exact .single (.flagged s f false)
  · exact .refl
  · exact .refl

theorem effects_freeSourceResolved (s : State) (j : CopyJob) : s.Effects (s.freeSourceResolved j) := by
  unfold State.freeSourceResolved
  split
  · split
    · next hf => exact effects_resolveFree s _ hf
    · exact .refl
  · exact .refl

/-! ### The ranges read few fields -/

/-- The ranges read neither the queues nor the links nor what a job names. -/
theorem State.Bounded.congr (h : s.Bounded) (frames : t.frames = s.frames) (spaces : t.spaces = s.spaces)
    (lowMark : t.lowMark = s.lowMark) (discretionary : t.scrub.discretionary = s.scrub.discretionary)
    (interval : t.scrub.interval = s.scrub.interval) (threshold : t.scrub.threshold = s.scrub.threshold)
    (jobs : t.jobs.length ≤ s.jobs.length) : t.Bounded := by
  have hframe : ∀ f, t.frame f = s.frame f := fun f => by simp only [State.frame, frames]
  have hspace : ∀ sp, t.space sp = s.space sp := fun sp => by simp only [State.space, spaces]
  have hentry : ∀ p, t.entry p = s.entry p := fun p => by simp only [State.entry, hspace]
  constructor
  · rw [discretionary]; exact h.discretionary
  · exact jobs.trans h.jobs
  · intro f; rw [hframe]; exact h.tally f
  · rw [interval]; exact h.interval
  · rw [threshold]; exact h.threshold
  · rw [lowMark]; exact h.lowMark
  · intro sp r hr; rw [hspace] at hr; exact h.size sp r hr
  · intro sp r hr p hp; rw [hspace] at hr; rw [hentry]; exact h.pages sp r hr p hp
  · intro f; rw [hframe]; exact h.shares f

theorem State.Bounded.sameRecords (h : s.Bounded) (hr : s.SameRecords t) : t.Bounded :=
  h.congr hr.frames hr.spaces hr.lowMark hr.discretionary hr.interval hr.threshold
    (by simpa using (congrArg List.length hr.jobs).le)

theorem State.Bounded.calm (h : s.Bounded) (hc : s.Calm t) : t.Bounded := h.sameRecords hc.toSameRecords

/-! ### Records -/

theorem State.Bounded.setFrame (h : s.Bounded) (f : FrameId) (r : FrameRecord) (ht : r.tally ≤ 15)
    (hr : r.state.refs.length ≤ 64) : (s.setFrame f r).Bounded where
  discretionary := h.discretionary
  jobs := h.jobs
  tally g := by rw [frame_setFrame]; split; exacts [ht, h.tally g]
  interval := h.interval
  threshold := h.threshold
  lowMark := h.lowMark
  size := h.size
  pages := h.pages
  shares g := by rw [frame_setFrame]; split; exacts [hr, h.shares g]

/-- A present page lies below the size of its space (R46). -/
theorem State.Bounded.room (h : s.Bounded) {p : BackRef} {e : MapEntry} (hp : s.entry p = some e) : s.Room p := by
  obtain ⟨r, hr⟩ := Option.isSome_iff_exists.1 (space_isSome_of_entry s p (by simp [hp]))
  refine ⟨r, hr, Nat.lt_of_not_le fun hle => ?_⟩
  have : s.entry p = none := h.pages p.1 r hr p.2 hle
  rw [hp] at this
  cases this

theorem State.Bounded.setEntry (h : s.Bounded) {p : BackRef} (hp : s.Room p) (e : Option MapEntry) :
    (s.setEntry p e).Bounded where
  discretionary := by simpa using h.discretionary
  jobs := by simpa using h.jobs
  tally f := by simpa using h.tally f
  interval := by simpa using h.interval
  threshold := by simpa using h.threshold
  lowMark := by simpa using h.lowMark
  size sp r hr := by
    rw [space_setEntry, Option.map_eq_some_iff] at hr
    obtain ⟨old, hold, rfl⟩ := hr
    have := h.size sp old hold
    split <;> exact this
  pages sp r hr q hq := by
    rw [space_setEntry, Option.map_eq_some_iff] at hr
    obtain ⟨old, hold, rfl⟩ := hr
    have hsize : old.size ≤ q.val := by split at hq <;> exact hq
    rw [entry_setEntry_of_room hp, if_neg]
    · exact h.pages sp old hold q hsize
    · rintro rfl
      obtain ⟨r, hr, hlt⟩ := hp
      rw [hold] at hr
      cases hr
      exact absurd hsize (Nat.not_le_of_lt hlt)
  shares f := by simpa using h.shares f

/-- A change of a page's entry, if the page is present. -/
theorem State.Bounded.setEntry_of_some (h : s.Bounded) {p : BackRef} {e : MapEntry} (hp : s.entry p = some e)
    (e' : Option MapEntry) : (s.setEntry p e').Bounded := h.setEntry (h.room hp) e'

theorem State.Bounded.clearCopyPending (h : s.Bounded) (p : BackRef) : (s.clearCopyPending p).Bounded := by
  unfold State.clearCopyPending
  split
  · exact h
  · next e he => exact h.setEntry_of_some he _

theorem State.Bounded.retarget (h : s.Bounded) (f : FrameId) (p : BackRef) : (s.retarget f p).Bounded := by
  unfold State.retarget
  split
  · exact h
  · next e he => exact h.setEntry_of_some he _

theorem State.Bounded.clearMoving (h : s.Bounded) (f : FrameId) : (s.clearMoving f).Bounded :=
  h.setFrame f { s.frame f with moving := false } (h.tally f) (h.shares f)

/-- The tally holds at 15 (R19). -/
theorem State.Bounded.commonEffect (h : s.Bounded) (finder : Finder) (e : ErrorEvent) :
    (s.commonEffect finder e).Bounded := by
  unfold State.commonEffect
  dsimp only
  split
  · exact h.setFrame _ _ (Nat.min_le_right _ _) (h.shares _)
  · have poisoned : (s.setFrame e.frame ((s.frame e.frame).afterUncorrectable e.word finder)).Bounded :=
      h.setFrame _ _ (h.tally _) (h.shares _)
    split
    · exact poisoned
    · exact poisoned.calm (calm_raiseBoth ..)

theorem State.Bounded.commonEffects (h : s.Bounded) (finder : Finder) (es : List ErrorEvent) :
    (s.commonEffects finder es).Bounded :=
  foldl_keeps State.Bounded _ es (fun _ e _ hx => hx.commonEffect finder e) s h

/-! ### Releases and retirements -/

/-- The discretionary count is below its limit at a discretionary retirement (R104). -/
theorem State.Bounded.retireFrame (h : s.Bounded) (f : FrameId) (d : Bool)
    (hd : d = true → s.scrub.discretionary < retireLimit) : (s.retireFrame f d).Bounded := by
  have hlist : State.Bounded { s with scrub := { s.scrub with
      retired := s.scrub.retired ++ [f]
      discretionary := if d then s.scrub.discretionary + 1 else s.scrub.discretionary } } := by
    refine ⟨?_, h.jobs, h.tally, h.interval, h.threshold, h.lowMark, h.size, h.pages, h.shares⟩
    show (if d then _ else _) ≤ 256
    split
    · next hx => exact hd hx
    · exact h.discretionary
  exact (hlist.setFrame f { s.frame f with state := .retired, retirePending := false } (h.tally f)
    (Nat.zero_le _)).calm (calm_raiseBoth ..)

theorem State.Bounded.kickClearer (h : s.Bounded) : s.kickClearer.Bounded :=
  h.congr (by simp) (by simp) (by simp) (by simp) (by simp) (by simp) (by simp)

theorem State.Bounded.release (h : s.Bounded) (f : FrameId) : (s.release f).Bounded := by
  unfold State.release
  split
  · exact h.retireFrame f false nofun
  · have queued : State.Bounded { s with clearQueue := s.clearQueue ++ [f] } :=
      h.congr rfl rfl rfl rfl rfl rfl le_rfl
    exact (queued.setFrame f { s.frame f with state := .clearing } (h.tally f) (Nat.zero_le _)).kickClearer

theorem State.Bounded.retireFree (h : s.Bounded) (f : FrameId) (d : Bool)
    (hd : d = true → s.scrub.discretionary < retireLimit) : (s.retireFree f d).Bounded := by
  have taken : State.Bounded { s with freeQueue := s.freeQueue.erase f } := h.congr rfl rfl rfl rfl rfl rfl le_rfl
  refine (taken.calm (calm_examineFall _)).retireFrame f d ?_
  rw [(calm_examineFall _).discretionary]
  exact hd

theorem State.Bounded.deferredRelease (h : s.Bounded) (f : FrameId) : (s.deferredRelease f).Bounded := by
  unfold State.deferredRelease
  split
  · exact h.release f
  · exact h

theorem State.Bounded.detach (h : s.Bounded) (p : BackRef) : (s.detach p).1.Bounded := by
  unfold State.detach
  split
  · exact h
  · next e he =>
    have hle : ((s.frame e.frame).state.refs.erase p).length ≤ 64 := List.length_erase_le.trans (h.shares e.frame)
    have dropped := (h.setEntry_of_some he none).setFrame e.frame
      { s.frame e.frame with state := .held ((s.frame e.frame).state.refs.erase p) } (h.tally e.frame) hle
    dsimp only
    split
    · dsimp only
      split
      · exact dropped
      · exact dropped.release _
    · exact dropped

/-! ### Copy jobs -/

theorem State.Bounded.makeJob (h : s.Bounded) (kind : JobKind) (source : FrameId) (waiters : List SlotRef)
    (hj : s.jobs.length < jobLimit) : (s.makeJob kind source waiters).Bounded := by
  rcases makeJob_cases s kind source waiters with ⟨_, he⟩ | ⟨target, rest, phase, _, he⟩ <;> rw [he]
  · exact h
  · have joined : State.Bounded { s with
        freeQueue := rest, jobs := s.jobs ++ [CopyJob.mk kind source target waiters phase] } :=
      ⟨h.discretionary, by rw [List.length_append]; exact hj, h.tally, h.interval, h.threshold, h.lowMark, h.size,
          h.pages, h.shares⟩
    have made := joined.setFrame target { s.frame target with state := .target } (h.tally target) (Nat.zero_le _)
    refine State.Bounded.calm ?_ (calm_examineFall _)
    split
    · exact made.sameRecords (sameRecords_present ..)
    · exact made

/-- A MOVE job is made only with room in the job queue (R75, R85). -/
theorem moveRefusal_eq_none {f : FrameId} (h : s.moveRefusal? f = none) :
    (s.frame f).state.isHeld = true ∧ (s.frame f).poisoned = false ∧ (s.frame f).moving = false ∧
      s.jobs.length < jobLimit ∧ s.freeQueue ≠ [] := by
  unfold State.moveRefusal? at h
  dsimp only at h
  split_ifs at h with h1 h2 h3
  simp only [not_or, Bool.not_eq_false, Bool.not_eq_true] at h1
  obtain ⟨hheld, hsound, hstill⟩ := h1
  exact ⟨hheld, hsound, hstill, Nat.lt_of_not_le h2, h3⟩

theorem effect_bounded (he : s.Effect t) (h : s.Bounded) : t.Bounded := by
  cases he with
  | records hr ho => exact h.sameRecords hr
  | lowMark v hv => exact ⟨h.discretionary, h.jobs, h.tally, h.interval, h.threshold, hv, h.size, h.pages, h.shares⟩
  | scrub interval threshold timer hi ht hw =>
    refine ⟨h.discretionary, h.jobs, h.tally, ?_, ?_, h.lowMark, h.size, h.pages, h.shares⟩
    · rcases hi with rfl | hi
      exacts [h.interval, hi]
    · rcases ht with rfl | ht
      exacts [h.threshold, ht]
  | space sp r hp hs =>
    refine ⟨h.discretionary, h.jobs, h.tally, h.interval, h.threshold, h.lowMark, ?_, ?_, h.shares⟩
    · intro tp new hnew
      rw [space_setSpace] at hnew
      split at hnew
      · rcases hs new hnew with ⟨old, hold, hsize⟩ | ⟨h1, h2, _⟩
        · exact hsize ▸ h.size sp old hold
        · exact ⟨h1, h2⟩
      · exact h.size tp new hnew
    · intro tp new hnew p hle
      rw [hp]
      rw [space_setSpace] at hnew
      split at hnew
      · next htp =>
        rcases hs new hnew with ⟨old, hold, hsize⟩ | ⟨_, _, hnone⟩
        · exact htp ▸ h.pages sp old hold p (hsize ▸ hle)
        · exact htp ▸ hnone p
      · exact h.pages tp new hnew p hle
  | entry p e e' hp hf hc => exact h.setEntry_of_some hp _
  | detached p => exact h.detach p
  | mapped p f rest hq hp hr =>
    have taken : State.Bounded { s with freeQueue := rest } := h.congr rfl rfl rfl rfl rfl rfl le_rfl
    exact (taken.setFrame f { s.frame f with state := .held [p] } (h.tally f)
      (Nat.le_of_ble_eq_true rfl)).setEntry ((room_setFrame ..).2 hr) _
  | cloned p q e hp hq hr hl =>
    unfold State.clonePage
    rw [hp]
    refine (h.setFrame e.frame { s.frame e.frame with state := .held ((s.frame e.frame).state.refs ++ [q]) }
      (h.tally e.frame) ?_).setEntry ((room_setFrame ..).2 hr) _
    simpa [FrameState.refs] using hl
  | retired f d hf hd => exact h.retireFree f d hd
  | flagged f flag => exact h.setFrame f { s.frame f with retirePending := flag } (h.tally f) (h.shares f)
  | moved f requester hm =>
    obtain ⟨_, _, _, hjobs, _⟩ := moveRefusal_eq_none hm
    exact (h.setFrame f { s.frame f with moving := true } (h.tally f) (h.shares f)).makeJob _ _ _ hjobs
  | copied p e k hp hc hj hq => exact (h.setEntry_of_some hp _).makeJob _ _ _ (by simpa using hj)
  | error finder e he => exact h.commonEffect finder e

theorem effects_bounded (he : s.Effects t) (h : s.Bounded) : t.Bounded := by
  induction he with
  | refl => exact h
  | tail _ he ih => exact effect_bounded he ih

theorem State.Bounded.slotReady_answered (h : s.Bounded) (waiters : List SlotRef) (requester : Option (LinkId × Byte))
    (status : Status) (f : FrameId) : ((s.slotReady waiters).answerRequester requester status f).Bounded :=
  h.calm ((calm_slotReady ..).trans (calm_answerRequester ..))

theorem State.Bounded.resolvePrivate (h : s.Bounded) (j : CopyJob) (p : BackRef) (bad : Bool) :
    (s.resolvePrivate j p bad).Bounded := by
  have dropped := (h.release j.target).clearCopyPending p
  unfold State.resolvePrivate
  dsimp only
  split_ifs
  · exact dropped.calm (calm_failWaiters ..)
  · exact dropped.calm (calm_slotReady ..)
  · exact dropped.calm (calm_slotReady ..)
  · have hle : ((s.frame j.source).state.refs.erase p).length ≤ 64 := List.length_erase_le.trans (h.shares j.source)
    have detached := h.setFrame j.source
      { s.frame j.source with state := .held ((s.frame j.source).state.refs.erase p) } (h.tally _) hle
    have attached := detached.setFrame j.target { State.frame _ j.target with state := .held [p] } (detached.tally j.target)
      (Nat.le_of_ble_eq_true rfl)
    exact ((attached.retarget j.target p).clearCopyPending p).calm (calm_slotReady ..)

theorem State.Bounded.carry (h : s.Bounded) (j : CopyJob) : (s.carry j).Bounded := by
  unfold State.carry
  dsimp only
  have emptied : ∀ x : State, x.Bounded → (x.setFrame j.source { x.frame j.source with state := .held [] }).Bounded :=
    fun x hx => hx.setFrame j.source { x.frame j.source with state := .held [] } (hx.tally _) (Nat.zero_le _)
  split
  · exact emptied _ (h.release j.target)
  · refine emptied _ (State.Bounded.setFrame ?_ j.target
      { s.frame j.target with state := .held (s.frame j.source).state.refs } (h.tally _) (h.shares j.source))
    exact foldl_keeps State.Bounded _ _ (fun x p _ hx => hx.retarget j.target p) s h

@[simp] theorem discretionary_release (s : State) (f : FrameId) :
    (s.release f).scrub.discretionary = s.scrub.discretionary := by
  unfold State.release
  split
  · exact (calm_raiseBoth ..).discretionary
  · simp

@[simp] theorem discretionary_carry (s : State) (j : CopyJob) :
    (s.carry j).scrub.discretionary = s.scrub.discretionary := by
  unfold State.carry
  dsimp only
  rw [setFrame_scrub]
  split
  · exact discretionary_release ..
  · rw [setFrame_scrub]
    refine foldl_keeps (fun x : State => x.scrub.discretionary = s.scrub.discretionary) _ _ (fun x p _ hx => ?_) s rfl
    unfold State.retarget
    split <;> simpa using hx

theorem State.Bounded.resolveMove (h : s.Bounded) (j : CopyJob) (requester : Option (LinkId × Byte)) (bad : Bool) :
    (s.resolveMove j requester bad).Bounded := by
  unfold State.resolveMove
  dsimp only
  split_ifs with _ hd
  · exact (((h.clearMoving j.source).release j.target).slotReady_answered ..).deferredRelease j.source
  · exact (((h.carry j).clearMoving j.source).retireFrame j.source true fun _ =>
      (discretionary_carry s j).trans_lt hd).slotReady_answered ..
  · have carried := h.carry j
    exact ((carried.setFrame j.source { (s.carry j).frame j.source with moving := false, retirePending := false }
      (carried.tally _) (carried.shares _)).release j.source).slotReady_answered ..

theorem State.Bounded.resolveJob (h : s.Bounded) (j : CopyJob) (bad : Bool) : (s.resolveJob j bad).Bounded := by
  rw [resolveJob_eq]
  have hdealt := effects_bounded (effects_freeSourceResolved s j) h
  unfold State.resolveDealt State.resolvePoisonedTarget
  dsimp only
  split
  · split
    · exact ((hdealt.release j.target).clearCopyPending _).calm (calm_slotReady ..)
    · exact (((hdealt.release j.target).clearMoving j.source).slotReady_answered ..).deferredRelease j.source
  · split
    · exact hdealt.resolvePrivate ..
    · exact hdealt.resolveMove ..

/-! ### Completions -/

theorem State.Bounded.completeClear (h : s.Bounded) (f : FrameId) : (s.completeClear f).Bounded := by
  rw [completeClear_eq]
  refine (State.Bounded.calm ?_ (calm_examinedClear s f)).kickClearer
  have erased : State.Bounded { s with clearQueue := s.clearQueue.erase f } := h.congr rfl rfl rfl rfl rfl rfl le_rfl
  unfold State.resolveCleared State.makeFree
  dsimp only
  split_ifs with _ hr
  · exact erased.retireFrame f false nofun
  · exact erased.retireFrame f true fun _ => hr.2
  · have queued : State.Bounded { s with clearQueue := s.clearQueue.erase f, freeQueue := s.freeQueue ++ [f] } :=
      h.congr rfl rfl rfl rfl rfl rfl le_rfl
    exact (queued.setFrame f { s.frame f with state := .free, retirePending := false } (h.tally f)
      (Nat.zero_le _)).calm (calm_examineRise _)

theorem State.Bounded.completeCopy (h : s.Bounded) (errors : List ErrorEvent) : (s.completeCopy errors).Bounded := by
  cases hj : s.jobs with
  | nil => unfold State.completeCopy; rw [hj]; exact h
  | cons j rest =>
    rw [completeCopy_cons s errors hj]
    have popped : State.Bounded { s with jobs := rest } := h.congr rfl rfl rfl rfl rfl rfl (by simp [hj])
    have resolved := (popped.commonEffects .copy errors).resolveJob j (anyUncorrectable errors)
    rcases startNextJob_cases (State.resolveJob _ j (anyUncorrectable errors)) with he | ⟨jobs, hcore, he⟩ <;> rw [he]
    · exact resolved
    · exact (resolved.calm (calm_jobs _ jobs hcore)).sameRecords (sameRecords_present ..)

theorem State.Bounded.endWork (h : s.Bounded) (f : FrameId) (work : CheckWork) (errors : List ErrorEvent) :
    (s.endWork f work errors).Bounded := by
  unfold State.endWork
  split
  · exact h.congr rfl rfl rfl rfl rfl rfl le_rfl
  · refine State.Bounded.calm (h.congr ?_ ?_ ?_ ?_ ?_ ?_ ?_) (calm_answerCheckOk ..)
    exacts [rfl, rfl, rfl, rfl, rfl, rfl, le_rfl]
  · exact h

theorem State.Bounded.completeCheck (h : s.Bounded) (errors : List ErrorEvent) : (s.completeCheck errors).Bounded := by
  cases he : s.scrub.engine with
  | idle => unfold State.completeCheck; rw [he]; exact h
  | busy f work =>
    rw [completeCheck_busy s errors he]
    have idle : State.Bounded { s with scrub := { s.scrub with engine := .idle } } := h.congr rfl rfl rfl rfl rfl rfl le_rfl
    exact ((effects_bounded (effects_consequence _ f) (idle.commonEffects work.finder errors)).endWork f work
      errors).sameRecords (sameRecords_nextWork ..)

/-! ### Every step -/

theorem runAccess_sameRecords (s : State) (c : Client) (h : ∀ i, c ≠ .dataPath i) : s.SameRecords (s.runAccess c) := by
  rcases runAccess_cases s c h with ⟨he, _⟩ | ⟨_, _, _, _, he⟩ | ⟨_, _, _, _, he⟩ | ⟨_, _, _, _, he⟩ <;> rw [he]
  · exact .refl s
  all_goals constructor <;> rfl

theorem sameRecords_serving (s : State) (c : Client) : s.SameRecords (s.serving c) := by constructor <;> rfl

theorem grant_bounded (h : s.Bounded) (c : Client) : (s.grant c).Bounded := by
  have serving := h.sameRecords (sameRecords_serving s c)
  rw [grant_eq]
  by_cases hp : ∀ i, c ≠ .dataPath i
  · exact serving.sameRecords (runAccess_sameRecords _ c hp)
  · push Not at hp
    obtain ⟨i, rfl⟩ := hp
    obtain ⟨m, heff, _⟩ := effects_grantSegment (s.serving (.dataPath i)) i
    exact effects_bounded heff (serving.congr rfl rfl rfl rfl rfl rfl le_rfl)

theorem finish_bounded (h : s.Bounded) : s.finish.Bounded :=
  finish_keeps State.Bounded (fun _ c _ _ hx => grant_bounded hx c) (fun _ _ => effects_bounded) s h

theorem endAccess_bounded (h : s.Bounded) : s.endAccess.Bounded := h.congr rfl rfl rfl rfl rfl rfl le_rfl

/-- The ranges of a part with no space and no copy job. -/
theorem fresh_bounded (spaces : ∀ sp, s.space sp = none) (frames : ∀ f, (s.frame f).tally ≤ 15 ∧ (s.frame f).state.refs = [])
    (jobs : s.jobs = []) (lowMark : s.lowMark = 64) (settings : (s.scrub.interval, s.scrub.threshold) = (10, 4))
    (discretionary : s.scrub.discretionary ≤ 256) : s.Bounded := by
  obtain ⟨interval, threshold⟩ := Prod.mk.inj settings
  refine ⟨discretionary, by simp [jobs], fun f => (frames f).1, by omega, by omega, by omega, ?_, ?_, fun f => ?_⟩
  · intro sp r hr; rw [spaces] at hr; cases hr
  · intro sp r hr; rw [spaces] at hr; cases hr
  · rw [(frames f).2]; exact Nat.zero_le _

theorem afterResetN_bounded (r : FrameRecord) (h : r.tally ≤ 15) :
    r.afterResetN.tally ≤ 15 ∧ r.afterResetN.state.refs = [] := by
  unfold FrameRecord.afterResetN
  split
  · next hr => exact ⟨h, by simp [hr, FrameState.refs]⟩
  · exact ⟨Nat.zero_le _, rfl⟩

theorem poweredOn_bounded (s : State) (pins0 pins1 : LinkPins) : (s.poweredOn pins0 pins1).Bounded := by
  refine fresh_bounded (space_poweredOn s pins0 pins1) (fun f => ?_) ?_ ?_ ?_ ?_
  · rw [frame_poweredOn]
    exact ⟨Nat.zero_le _, rfl⟩
  exacts [rfl, rfl, rfl, Nat.zero_le _]

theorem event_bounded (he : s.Event t) (h : s.Bounded) : t.Bounded := by
  cases he with
  | still hs => exact h.calm hs.toCalm
  | struck f w b => exact h.congr rfl rfl rfl rfl rfl rfl le_rfl
  | worked he => exact finish_bounded (effects_bounded he h)
  | awaited i m hc =>
    exact finish_bounded ((h.calm hc).congr (by simp) (by simp) (by simp) (by simp) (by simp) (by simp) (by simp))
  | poweredOn pins0 pins1 => exact finish_bounded (poweredOn_bounded s pins0 pins1).kickClearer
  | reset =>
    refine finish_bounded (State.Bounded.kickClearer (fresh_bounded (space_resetHeld s) ?_ rfl rfl rfl ?_))
    · intro f
      rw [frame_resetHeld]
      exact afterResetN_bounded _ (h.tally f)
    · exact h.discretionary
  | cleared f hc => exact finish_bounded ((endAccess_bounded h).completeClear f)
  | copied a b es hc => exact finish_bounded ((endAccess_bounded h).completeCopy es)
  | checked f es hc => exact finish_bounded ((endAccess_bounded h).completeCheck es)

/-- Settles O8: the ranges are kept by every effect of a request, by every completion and by the resets. -/
theorem stepKeepsBounded : Obligations.StepKeepsBounded :=
  fun s t hs h => step_keeps State.Bounded (fun _ _ hst hb => hb.calm hst.toCalm) (fun _ _ => event_bounded) s t hs h

end Sys2Proof.Machine
end

section
/-! SUPPORT. How the records of frames, lists, map entries and copy jobs agree (R12, R13, R17, R25, R29, R47, R75, R79),
said of plain functions and lists, with the slack an operation leaves until it ends: a frame that stands in no list, a
copy job taken from its queue. -/

namespace Sys2Proof.Machine

/-! ### Frames and the lists that hold them -/

/-- The four lists that hold frames by their state (R12, R25, R29, R75, R103). -/
inductive Roll where
  | clear
  | free
  | retired
  | target

/-- The list that holds the frames of a state. -/
def FrameState.place : FrameState → Option Roll
  | .clearing => some .clear
  | .free => some .free
  | .held _ => none
  | .target => some .target
  | .retired => some .retired

/-- The state of the frames a list holds. -/
def Roll.state : Roll → FrameState
  | .clear => .clearing
  | .free => .free
  | .retired => .retired
  | .target => .target

theorem place_eq_some (st : FrameState) (q : Roll) : st.place = some q ↔ st = q.state := by
  cases st <;> cases q <;> simp [FrameState.place, Roll.state]

/-- What a frame that takes a state adds to a list. -/
def FrameState.joins (st : FrameState) (q : Roll) (f : FrameId) : List FrameId :=
  match st, q with
  | .clearing, .clear => [f]
  | .free, .free => [f]
  | .retired, .retired => [f]
  | .target, .target => [f]
  | _, _ => []

theorem joins_of_place {st : FrameState} {q : Roll} (h : st.place = some q) (f : FrameId) : st.joins q f = [f] := by
  rw [place_eq_some] at h
  subst h
  cases q <;> rfl

theorem joins_of_place_ne {st : FrameState} {q : Roll} (h : st.place ≠ some q) (f : FrameId) : st.joins q f = [] := by
  cases st <;> cases q <;> simp_all [FrameState.place, FrameState.joins]

/-- Each list holds the frames of its state, each once; loose frames stand in none. -/
structure Census (state : FrameId → FrameState) (placed : Roll → List FrameId) (loose : List FrameId) : Prop where
  nodup : ∀ k, (placed k).Nodup
  looseNodup : loose.Nodup
  mem : ∀ k f, f ∈ placed k ↔ (state f).place = some k ∧ f ∉ loose

section

variable {state state' : FrameId → FrameState} {placed placed' : Roll → List FrameId} {loose : List FrameId} {f : FrameId}

theorem Census.keep (h : Census state placed loose) (hs : ∀ g, (state' g).place = (state g).place) :
    Census state' placed loose :=
  ⟨h.nodup, h.looseNodup, fun k g => by rw [hs]; exact h.mem k g⟩

theorem Census.of_placed (h : Census state placed loose) (hp : ∀ q, placed' q = placed q) : Census state placed' loose :=
  (funext hp : placed' = placed) ▸ h

/-- A frame taken from its list. -/
theorem Census.loosen (h : Census state placed loose) {k : Roll} (hf : f ∈ placed k) (hk : placed' k = (placed k).erase f)
    (ho : ∀ q, q ≠ k → placed' q = placed q) : Census state placed' (f :: loose) := by
  obtain ⟨hplace, hloose⟩ := (h.mem k f).1 hf
  refine ⟨fun q => ?_, List.nodup_cons.2 ⟨hloose, h.looseNodup⟩, fun q g => ?_⟩
  · by_cases hq : q = k
    · rw [hq, hk]; exact (h.nodup k).erase f
    · rw [ho q hq]; exact h.nodup q
  · by_cases hq : q = k
    · rw [hq, hk, (h.nodup k).mem_erase_iff, h.mem]
      simp only [List.mem_cons, not_or]
      tauto
    · rw [ho q hq, h.mem]
      have : (state g).place = some q → g ≠ f := by
        rintro hg rfl
        rw [hplace, Option.some.injEq] at hg
        exact hq hg.symm
      simp only [List.mem_cons, not_or]
      tauto

/-- A HELD frame stands in no list. -/
theorem Census.loosen_held (h : Census state placed loose) (hf : (state f).place = none) (hl : f ∉ loose) :
    Census state placed (f :: loose) := by
  refine ⟨h.nodup, List.nodup_cons.2 ⟨hl, h.looseNodup⟩, fun q g => ?_⟩
  have : (state g).place = some q → g ≠ f := by
    rintro hg rfl
    rw [hf] at hg
    cases hg
  rw [h.mem]
  simp only [List.mem_cons, not_or]
  tauto

/-- A loose frame takes a state and joins the tail of its list. -/
theorem Census.settle (h : Census state placed (f :: loose)) (ho : ∀ g, g ≠ f → state' g = state g)
    (hp : ∀ q, placed' q = placed q ++ (state' f).joins q f) : Census state' placed' loose := by
  have hnot : ∀ q, f ∉ placed q := fun q hq => ((h.mem q f).1 hq).2 List.mem_cons_self
  have hin : ∀ q, (state' f).place = some q → placed' q = placed q ++ [f] := fun q hq => by
    rw [hp, joins_of_place hq]
  have hout : ∀ q, (state' f).place ≠ some q → placed' q = placed q := fun q hq => by
    rw [hp, joins_of_place_ne hq, List.append_nil]
  obtain ⟨hf, hloose⟩ := List.nodup_cons.1 h.looseNodup
  refine ⟨fun q => ?_, hloose, fun q g => ?_⟩
  · by_cases hq : (state' f).place = some q
    · rw [hin q hq]
      exact List.nodup_append.2 ⟨h.nodup q, List.nodup_singleton f, fun a ha b hb e =>
        hnot q (List.mem_singleton.1 hb ▸ e ▸ ha)⟩
    · rw [hout q hq]; exact h.nodup q
  · by_cases hg : g = f
    · subst hg
      by_cases hq : (state' g).place = some q
      · rw [hin q hq]; simp [hq, hf]
      · rw [hout q hq]; simp [hq, hnot]
    · have hmem : g ∈ placed' q ↔ g ∈ placed q := by
        by_cases hq : (state' f).place = some q
        · rw [hin q hq]; simp [hg]
        · rw [hout q hq]
      rw [hmem, h.mem, ho g hg]
      simp [hg]

end

/-! ### Back-reference lists and the pages that name frames -/

/-- A frame's list holds the pages that name it, each once (R13, R47). -/
structure Lists (refs : FrameId → List BackRef) (names : BackRef → Option FrameId) : Prop where
  mem : ∀ p f, p ∈ refs f ↔ names p = some f
  nodup : ∀ f, (refs f).Nodup

section

variable {refs refs' : FrameId → List BackRef} {names names' : BackRef → Option FrameId} {p : BackRef} {f : FrameId}

/-- A page made absent leaves its frame's list. -/
theorem Lists.detach (h : Lists refs names) (hp : names p = some f) (hf : refs' f = (refs f).erase p)
    (ho : ∀ g, g ≠ f → refs' g = refs g) (hn : names' p = none) (hno : ∀ q, q ≠ p → names' q = names q) :
    Lists refs' names' := by
  constructor
  · intro q g
    by_cases hg : g = f
    · subst hg
      rw [hf, (h.nodup g).mem_erase_iff, h.mem]
      by_cases hq : q = p
      · simp [hq, hn]
      · simp [hq, hno]
    · rw [ho g hg, h.mem]
      by_cases hq : q = p
      · subst hq
        rw [hp, hn]
        simp [Ne.symm hg]
      · rw [hno q hq]
  · intro g
    by_cases hg : g = f
    · rw [hg, hf]; exact (h.nodup f).erase p
    · rw [ho g hg]; exact h.nodup g

/-- A page made present joins its frame's list. -/
theorem Lists.attach (h : Lists refs names) (hp : names p = none) (hf : refs' f = refs f ++ [p])
    (ho : ∀ g, g ≠ f → refs' g = refs g) (hn : names' p = some f) (hno : ∀ q, q ≠ p → names' q = names q) :
    Lists refs' names' := by
  have hnot : ∀ g, p ∉ refs g := fun g hg => by
    rw [h.mem, hp] at hg
    cases hg
  constructor
  · intro q g
    by_cases hg : g = f
    · subst hg
      rw [hf, List.mem_append, List.mem_singleton, h.mem]
      by_cases hq : q = p
      · simp [hq, hn]
      · simp [hq, hno]
    · rw [ho g hg, h.mem]
      by_cases hq : q = p
      · subst hq
        rw [hp, hn]
        simp [Ne.symm hg]
      · rw [hno q hq]
  · intro g
    by_cases hg : g = f
    · rw [hg, hf]
      exact List.nodup_append.2 ⟨h.nodup f, List.nodup_singleton p, fun a ha b hb e =>
        hnot f (List.mem_singleton.1 hb ▸ e ▸ ha)⟩
    · rw [ho g hg]; exact h.nodup g

/-- The pages of one frame carried to a frame with none. -/
theorem Lists.carry (h : Lists refs names) {a b : FrameId} (hab : a ≠ b) (hb : refs b = []) (ha' : refs' a = [])
    (hb' : refs' b = refs a) (ho : ∀ g, g ≠ a → g ≠ b → refs' g = refs g)
    (hn : ∀ q, names' q = if names q = some a then some b else names q) : Lists refs' names' := by
  have hnone : ∀ q, names q ≠ some b := fun q hq => by
    have := (h.mem q b).2 hq
    rw [hb] at this
    cases this
  constructor
  · intro q g
    rw [hn]
    by_cases hga : g = a
    · subst hga
      rw [ha']
      by_cases hq : names q = some g <;> simp [hq, Ne.symm hab]
    · by_cases hgb : g = b
      · subst hgb
        rw [hb', h.mem]
        by_cases hq : names q = some a <;> simp [hq, hnone q]
      · rw [ho g hga hgb, h.mem]
        by_cases hq : names q = some a
        · simp [hq, Ne.symm hga, Ne.symm hgb]
        · simp [hq]
  · intro g
    by_cases hga : g = a
    · rw [hga, ha']; exact List.nodup_nil
    · by_cases hgb : g = b
      · rw [hgb, hb']; exact h.nodup a
      · rw [ho g hga hgb]; exact h.nodup g

end

/-! ### The flags of frames and of pages -/

/-- The moving frames are the sources named and HELD; a frame HELD with no page is moving, but for those excepted, and a
FREE frame is not poisoned, but for those suspected (R17, R21, R29, R57). -/
structure Marks (frame : FrameId → FrameRecord) (movers empty suspect : List FrameId) : Prop where
  moving : ∀ f, (frame f).moving = true ↔ f ∈ movers
  nodup : movers.Nodup
  held : ∀ f, (frame f).moving = true → (frame f).state.isHeld = true
  empty : ∀ f, (frame f).state = .held [] → (frame f).moving = true ∨ f ∈ empty
  sound : ∀ f, (frame f).state = .free → (frame f).poisoned = false ∨ f ∈ suspect

/-- A record replaced, its moving flag kept. -/
theorem Marks.update {frame frame' : FrameId → FrameRecord} {movers movers' empty empty' suspect suspect' : List FrameId}
    (h : Marks frame movers empty suspect) (f : FrameId) (ho : ∀ g, g ≠ f → frame' g = frame g)
    (hm : (frame' f).moving = (frame f).moving) (hh : (frame' f).moving = true → (frame' f).state.isHeld = true)
    (he : (frame' f).state = .held [] → (frame' f).moving = true ∨ f ∈ empty')
    (hs : (frame' f).state = .free → (frame' f).poisoned = false ∨ f ∈ suspect')
    (movers : movers'.Perm movers) (empty : ∀ g ∈ empty, g = f ∨ g ∈ empty')
    (suspect : ∀ g ∈ suspect, g = f ∨ g ∈ suspect') : Marks frame' movers' empty' suspect' := by
  refine ⟨fun g => ?_, movers.nodup_iff.2 h.nodup, fun g => ?_, fun g => ?_, fun g => ?_⟩
  all_goals by_cases hg : g = f
  · rw [movers.mem_iff, ← h.moving, hg, hm]
  · rw [movers.mem_iff, ← h.moving, ho g hg]
  · rw [hg]; exact hh
  · rw [ho g hg]; exact h.held g
  · rw [hg]; exact he
  · rw [ho g hg]
    exact fun hx => (h.empty g hx).imp_right fun hx => (empty g hx).resolve_left hg
  · rw [hg]; exact hs
  · rw [ho g hg]
    exact fun hx => (h.sound g hx).imp_right fun hx => (suspect g hx).resolve_left hg

/-- The present pages with copy-pending set are those named (R79). -/
structure Pending (entry : BackRef → Option MapEntry) (pages : List BackRef) : Prop where
  mem : ∀ p e, entry p = some e → (e.copyPending = true ↔ p ∈ pages)
  nodup : pages.Nodup

/-! ### The whole part -/

/-- What an operation leaves until it ends: frames in no list, sources and pages of a job no longer queued, frames HELD
with no page though not moving, and FREE frames that may be poisoned. -/
structure Slack where
  loose : List FrameId := []
  movers : List FrameId := []
  pages : List BackRef := []
  empty : List FrameId := []
  suspect : List FrameId := []

/-- The four lists of the part. -/
def State.placed (s : State) : Roll → List FrameId
  | .clear => s.clearQueue
  | .free => s.freeQueue
  | .retired => s.scrub.retired
  | .target => s.jobs.map CopyJob.target

/-- Records, lists, entries and jobs agree up to a slack. -/
structure State.Agrees (s : State) (k : Slack) : Prop where
  census : Census (fun f => (s.frame f).state) s.placed k.loose
  lists : Lists (fun f => (s.frame f).state.refs) s.frameOf
  marks : Marks s.frame (k.movers ++ s.jobs.filterMap CopyJob.moves?) k.empty k.suspect
  pending : Pending s.entry (k.pages ++ s.jobs.filterMap CopyJob.entry?)

/-- The access in progress is the work its block has in hand (R4, R76, R94). -/
structure State.InHand (s : State) : Prop where
  clear : ∀ f, s.arbiter.current = some (.clear f) → s.clearQueue.head? = some f
  copy : ∀ a b es, s.arbiter.current = some (.copy a b es) →
    (∃ j, s.jobs.head? = some j ∧ j.source = a ∧ j.target = b) ∧ ∀ e ∈ es, e.frame = a
  check : ∀ a es, s.arbiter.current = some (.check a es) →
    (∃ work, s.scrub.engine = .busy a work) ∧ ∀ e ∈ es, e.frame = a

section

variable {s t : State} {k : Slack} {f : FrameId} {p : BackRef}

theorem frameOf_eq_some : s.frameOf p = some f ↔ ∃ e, s.entry p = some e ∧ e.frame = f := by
  unfold State.frameOf
  exact Option.map_eq_some_iff

theorem consistent_iff : s.Consistent ↔ s.Agrees {} ∧ s.InHand := by
  constructor
  · intro h
    refine ⟨⟨⟨?_, List.nodup_nil, ?_⟩, ⟨fun p f => ?_, h.listNodup⟩, ⟨h.moving, h.moveNodup, h.movingHeld,
      fun f hf => Or.inl (h.emptyMoving f hf), fun f hf => Or.inl (h.freeSound f hf)⟩, ⟨h.copyPending, h.privateNodup⟩⟩,
      ⟨h.clearHead, h.copyHead, h.checkEngine⟩⟩
    · rintro (_ | _ | _ | _)
      exacts [h.clearNodup, h.freeNodup, h.retiredNodup, h.targetNodup]
    · rintro (_ | _ | _ | _) f <;> rw [place_eq_some]
      · exact (h.clearing f).trans (and_iff_left List.not_mem_nil).symm
      · exact (h.free f).trans (and_iff_left List.not_mem_nil).symm
      · exact (h.retired f).trans (and_iff_left List.not_mem_nil).symm
      · exact (h.target f).trans (and_iff_left List.not_mem_nil).symm
    · rw [frameOf_eq_some]
      exact ⟨h.listedEntry f p, fun ⟨e, he, hf⟩ => hf ▸ h.entryListed p e he⟩
  · rintro ⟨h, hand⟩
    have placed : ∀ (q : Roll) f, f ∈ s.placed q ↔ (s.frame f).state = q.state := fun q f => by
      rw [← place_eq_some]
      simpa using h.census.mem q f
    exact {
      clearNodup := h.census.nodup .clear
      freeNodup := h.census.nodup .free
      retiredNodup := h.census.nodup .retired
      clearing := placed .clear
      free := placed .free
      retired := placed .retired
      target := placed .target
      targetNodup := h.census.nodup .target
      entryListed := fun p e he => (h.lists.mem p _).2 (frameOf_eq_some.2 ⟨e, he, rfl⟩)
      listedEntry := fun f p hp => frameOf_eq_some.1 ((h.lists.mem p f).1 hp)
      listNodup := h.lists.nodup
      emptyMoving := fun f hf => (h.marks.empty f hf).resolve_right List.not_mem_nil
      moving := h.marks.moving
      moveNodup := h.marks.nodup
      movingHeld := h.marks.held
      copyPending := h.pending.mem
      privateNodup := h.pending.nodup
      clearHead := hand.clear
      freeSound := fun f hf => (h.marks.sound f hf).resolve_right List.not_mem_nil
      copyHead := hand.copy
      checkEngine := hand.check }

end

end Sys2Proof.Machine
end

section
/-! SUPPORT. What each operation on frames, entries and copy jobs makes of the agreement. -/

namespace Sys2Proof.Machine

variable {s t : State} {k : Slack} {f : FrameId} {p : BackRef}

/-! ### The agreement reads few fields -/

theorem State.Agrees.congr (h : s.Agrees k) (frame : ∀ f, t.frame f = s.frame f) (entry : ∀ p, t.entry p = s.entry p)
    (placed : ∀ q, t.placed q = s.placed q) (movers : t.jobs.filterMap CopyJob.moves? = s.jobs.filterMap CopyJob.moves?)
    (pages : t.jobs.filterMap CopyJob.entry? = s.jobs.filterMap CopyJob.entry?) : t.Agrees k := by
  have hframe : t.frame = s.frame := funext frame
  have hentry : t.entry = s.entry := funext entry
  have hnames : t.frameOf = s.frameOf := funext fun p => by unfold State.frameOf; rw [hentry]
  have hplaced : t.placed = s.placed := funext placed
  refine ⟨?_, ?_, ?_, ?_⟩
  · rw [hframe, hplaced]; exact h.census
  · rw [hframe, hnames]; exact h.lists
  · rw [hframe, movers]; exact h.marks
  · rw [hentry, pages]; exact h.pending

theorem State.SameRecords.placed (h : s.SameRecords t) (q : Roll) : t.placed q = s.placed q := by
  cases q
  exacts [h.clearQueue, h.freeQueue, h.retired, h.targets]

theorem State.Agrees.sameRecords (h : s.Agrees k) (hr : s.SameRecords t) : t.Agrees k :=
  h.congr hr.frame hr.entry hr.placed hr.sources hr.entries

theorem State.Agrees.calm (h : s.Agrees k) (hc : s.Calm t) : t.Agrees k := h.sameRecords hc.toSameRecords

theorem State.Agrees.kickClearer (h : s.Agrees k) : s.kickClearer.Agrees k :=
  h.congr (by simp) (by simp) (fun q => by cases q <;> simp [State.placed]) (by simp) (by simp)

/-- More frames excepted. -/
theorem State.Agrees.mono (h : s.Agrees k) {empty suspect : List FrameId} (he : k.empty ⊆ empty) (hs : k.suspect ⊆ suspect) :
    s.Agrees { k with empty := empty, suspect := suspect } :=
  ⟨h.census, h.lists, ⟨h.marks.moving, h.marks.nodup, h.marks.held, fun f hf =>
      (h.marks.empty f hf).imp_right fun hx => he hx,
    fun f hf => (h.marks.sound f hf).imp_right fun hx => hs hx⟩, h.pending⟩

/-- A frame excepted without need. -/
theorem State.Agrees.dropEmpty (h : s.Agrees { k with empty := f :: k.empty })
    (hf : (s.frame f).state = .held [] → (s.frame f).moving = true) : s.Agrees k :=
  ⟨h.census, h.lists, ⟨h.marks.moving, h.marks.nodup, h.marks.held, fun g hg => by
    rcases h.marks.empty g hg with hm | hx
    · exact Or.inl hm
    · rcases List.mem_cons.1 hx with rfl | hx
      · exact Or.inl (hf hg)
      · exact Or.inr hx, h.marks.sound⟩, h.pending⟩

theorem State.Agrees.dropSuspect (h : s.Agrees { k with suspect := f :: k.suspect })
    (hf : (s.frame f).state = .free → (s.frame f).poisoned = false) : s.Agrees k :=
  ⟨h.census, h.lists, ⟨h.marks.moving, h.marks.nodup, h.marks.held, h.marks.empty, fun g hg => by
    rcases h.marks.sound g hg with hm | hx
    · exact Or.inl hm
    · rcases List.mem_cons.1 hx with rfl | hx
      · exact Or.inl (hf hg)
      · exact Or.inr hx⟩, h.pending⟩

/-! ### What the agreement says of one frame -/

theorem refs_of_not_held {st : FrameState} (h : st.isHeld = false) : st.refs = [] := by
  cases st with
  | held refs => cases h
  | _ => rfl

theorem held_of_refs {st : FrameState} (h : st.refs ≠ []) : st = .held st.refs := by
  cases st with
  | held refs => rfl
  | _ => exact absurd rfl h

theorem held_refs_of_isHeld {st : FrameState} (h : st.isHeld = true) : st = .held st.refs := by
  cases st with
  | held refs => rfl
  | _ => cases h

theorem State.Agrees.still (h : s.Agrees k) (hf : (s.frame f).state.isHeld = false) : (s.frame f).moving = false := by
  cases hm : (s.frame f).moving with
  | false => rfl
  | true => rw [h.marks.held f hm] at hf; cases hf

/-- A page that names a frame stands in its list, so the frame is HELD. -/
theorem State.Agrees.listed (h : s.Agrees k) {e : MapEntry} (he : s.entry p = some e) : p ∈ (s.frame e.frame).state.refs :=
  (h.lists.mem p _).2 (frameOf_eq_some.2 ⟨e, he, rfl⟩)

theorem State.Agrees.held (h : s.Agrees k) {e : MapEntry} (he : s.entry p = some e) :
    (s.frame e.frame).state = .held (s.frame e.frame).state.refs :=
  held_of_refs (List.ne_nil_of_mem (h.listed he))

theorem State.Agrees.state_of_mem (h : s.Agrees k) {q : Roll} (hf : f ∈ s.placed q) : (s.frame f).state = q.state :=
  (place_eq_some _ _).1 ((h.census.mem q f).1 hf).1

/-! ### Flags -/

@[simp] theorem placed_setFrame (s : State) (f : FrameId) (r : FrameRecord) (q : Roll) :
    (s.setFrame f r).placed q = s.placed q := by
  cases q <;> rfl

@[simp] theorem placed_setEntry (s : State) (p : BackRef) (e : Option MapEntry) (q : Roll) :
    (s.setEntry p e).placed q = s.placed q := by
  cases q <;> simp [State.placed]

/-- A record's counts and flags changed, its state and moving flag kept (R18–R20). -/
theorem State.Agrees.flags (h : s.Agrees k) (f : FrameId) (r : FrameRecord) (hs : r.state = (s.frame f).state)
    (hm : r.moving = (s.frame f).moving)
    (hp : r.state = .free → r.poisoned = (s.frame f).poisoned ∨ f ∈ k.suspect) : (s.setFrame f r).Agrees k := by
  have hstate : ∀ g, ((s.setFrame f r).frame g).state = (s.frame g).state := by
    intro g
    rw [frame_setFrame]
    split
    · next hg => rw [hg, hs]
    · rfl
  have hself : (s.setFrame f r).frame f = r := frame_setFrame_same ..
  refine ⟨h.census.keep fun g => by rw [hstate], ?_, ?_, h.pending⟩
  · simp only [hstate]; exact h.lists
  · refine h.marks.update f (fun g hg => frame_setFrame_other _ _ _ _ hg) (by rw [hself, hm]) ?_ ?_ ?_ .rfl
      (fun g hg => Or.inr hg) fun g hg => Or.inr hg
    · rw [hself, hm, hs]; exact h.marks.held f
    · rw [hself, hm, hs]; exact h.marks.empty f
    · rw [hself]
      intro hfree
      rcases hp hfree with hx | hx
      · rw [hx]; exact h.marks.sound f (hs ▸ hfree)
      · exact Or.inr hx

/-- A page's entry replaced by one that names the same frame. -/
theorem State.Agrees.setEntry (h : s.Agrees k) {e e' : MapEntry} (he : s.entry p = some e) (hf : e'.frame = e.frame)
    {pages : List BackRef} (hp : ∀ q x, (if q = p then some e' else s.entry q) = some x →
      (x.copyPending = true ↔ q ∈ pages ++ s.jobs.filterMap CopyJob.entry?))
    (hn : (pages ++ s.jobs.filterMap CopyJob.entry?).Nodup) : (s.setEntry p (some e')).Agrees { k with pages := pages } := by
  have hentry := entry_setEntry_of_some he (some e')
  have hnames : (s.setEntry p (some e')).frameOf = s.frameOf := by
    funext q
    unfold State.frameOf
    rw [hentry]
    split
    · next hq => rw [hq, he]; simp [hf]
    · rfl
  have hframe : (s.setEntry p (some e')).frame = s.frame := funext fun g => frame_setEntry ..
  refine ⟨?_, ?_, ?_, ?_⟩
  · rw [hframe]; exact h.census.of_placed (placed_setEntry s p _)
  · rw [hnames, hframe]; exact h.lists
  · rw [hframe, setEntry_jobs]; exact h.marks
  · rw [setEntry_jobs]
    exact ⟨fun q x hx => hp q x (by rw [← hentry]; exact hx), hn⟩

/-- An entry's flags changed, but for copy-pending. -/
theorem State.Agrees.entryFlags (h : s.Agrees k) {e e' : MapEntry} (he : s.entry p = some e) (hf : e'.frame = e.frame)
    (hc : e'.copyPending = e.copyPending) : (s.setEntry p (some e')).Agrees k := by
  refine h.setEntry (pages := k.pages) he hf (fun q x hx => ?_) h.pending.nodup
  split at hx
  · next hq =>
    cases hx
    rw [hq, hc]
    exact h.pending.mem p e he
  · exact h.pending.mem q x hx

end Sys2Proof.Machine
end

section
/-! SUPPORT. A frame that leaves its list, and where it goes: to the clear queue, the free queue, the retired list, a page or
a copy job. -/

namespace Sys2Proof.Machine

variable {s t : State} {k : Slack} {f : FrameId} {p : BackRef}

/-! ### A frame in no list -/

/-- A frame in no list that no page names and no MOVE job moves; all else agrees up to the slack. -/
structure State.Spare (s : State) (k : Slack) (f : FrameId) : Prop where
  agrees : s.Agrees { k with loose := f :: k.loose, empty := f :: k.empty, suspect := f :: k.suspect }
  bare : (s.frame f).state.refs = []
  still : (s.frame f).moving = false

theorem State.Agrees.spare (h : s.Agrees { k with loose := f :: k.loose }) (hf : (s.frame f).state.isHeld = false) :
    s.Spare k f :=
  ⟨h.mono (List.subset_cons_self ..) (List.subset_cons_self ..), refs_of_not_held hf, h.still hf⟩

/-- A frame HELD with no page, and not moving, is as if in no list. -/
theorem State.Agrees.spare_of_held (h : s.Agrees { k with empty := f :: k.empty }) (hf : (s.frame f).state = .held [])
    (hm : (s.frame f).moving = false) (hl : f ∉ k.loose) : s.Spare k f := by
  have wide := h.mono (List.Subset.refl _) (List.subset_cons_self f k.suspect)
  exact ⟨⟨h.census.loosen_held (by rw [hf]; rfl) hl, wide.lists, wide.marks, wide.pending⟩, by rw [hf]; rfl, hm⟩

theorem Pending.perm {entry : BackRef → Option MapEntry} {pages pages' : List BackRef} (h : Pending entry pages)
    (hp : pages'.Perm pages) : Pending entry pages' :=
  ⟨fun p e he => by rw [hp.mem_iff]; exact h.mem p e he, hp.nodup_iff.2 h.nodup⟩

/-- A spare frame takes a state with no pages and joins its list. -/
theorem State.Spare.settle (h : s.Spare k f) (r : FrameRecord) {movers : List FrameId} {pages : List BackRef}
    (frame : ∀ g, t.frame g = if g = f then r else s.frame g) (entry : ∀ p, t.entry p = s.entry p)
    (placed : ∀ q, t.placed q = s.placed q ++ r.state.joins q f) (held : r.state.isHeld = false) (still : r.moving = false)
    (sound : r.state = .free → r.poisoned = false)
    (hm : (movers ++ t.jobs.filterMap CopyJob.moves?).Perm (k.movers ++ s.jobs.filterMap CopyJob.moves?))
    (hp : (pages ++ t.jobs.filterMap CopyJob.entry?).Perm (k.pages ++ s.jobs.filterMap CopyJob.entry?)) :
    t.Agrees { k with movers := movers, pages := pages } := by
  have hself : t.frame f = r := by rw [frame, if_pos rfl]
  have hother : ∀ g, g ≠ f → t.frame g = s.frame g := fun g hg => by rw [frame, if_neg hg]
  have hentry : t.entry = s.entry := funext entry
  refine ⟨?_, ?_, ?_, ?_⟩
  · refine h.agrees.census.settle (fun g hg => by rw [hother g hg]) ?_
    rw [hself]
    exact placed
  · have hrefs : (fun g => (t.frame g).state.refs) = fun g => (s.frame g).state.refs := by
      funext g
      by_cases hg : g = f
      · rw [hg, hself, refs_of_not_held held, h.bare]
      · rw [hother g hg]
    have hnames : t.frameOf = s.frameOf := funext fun p => by unfold State.frameOf; rw [hentry]
    rw [hrefs, hnames]
    exact h.agrees.lists
  · refine h.agrees.marks.update f hother ?_ ?_ ?_ ?_ hm (fun g hg => List.mem_cons.1 hg) (fun g hg => List.mem_cons.1 hg)
    · rw [hself, still, h.still]
    · rw [hself, still]; nofun
    · rw [hself]; intro hr; rw [hr] at held; cases held
    · rw [hself]; exact fun hr => Or.inl (sound hr)
  · rw [hentry]
    exact h.agrees.pending.perm hp

/-! ### Where a spare frame goes -/

theorem frame_retireFrame (s : State) (f g : FrameId) (d : Bool) : (s.retireFrame f d).frame g =
    if g = f then { s.frame f with state := .retired, retirePending := false } else s.frame g := by
  unfold State.retireFrame
  dsimp only
  rw [(calm_raiseBoth ..).frame, frame_setFrame]
  rfl

theorem placed_retireFrame (s : State) (f : FrameId) (d : Bool) (q : Roll) :
    (s.retireFrame f d).placed q = s.placed q ++ FrameState.retired.joins q f := by
  unfold State.retireFrame
  dsimp only
  rw [(calm_raiseBoth ..).placed, placed_setFrame]
  cases q <;> simp [State.placed, FrameState.joins]

@[simp] theorem jobs_retireFrame (s : State) (f : FrameId) (d : Bool) : (s.retireFrame f d).jobs = s.jobs := by
  simp [State.retireFrame]

theorem State.Spare.retireFrame (h : s.Spare k f) (d : Bool) : (s.retireFrame f d).Agrees k :=
  h.settle { s.frame f with state := .retired, retirePending := false } (fun g => frame_retireFrame s f g d)
    (fun p => entry_retireFrame s f d p) (fun q => placed_retireFrame s f d q) rfl h.still nofun
    (by rw [jobs_retireFrame]) (by rw [jobs_retireFrame])

/-- A released frame leaves use, by way of the clear queue or to RETIRED (R34, R35). -/
theorem State.Spare.release (h : s.Spare k f) : (s.release f).Agrees k := by
  unfold State.release
  split
  · exact h.retireFrame false
  · refine State.Agrees.kickClearer (h.settle { s.frame f with state := .clearing } (fun g => ?_) (fun p => ?_) (fun q => ?_)
      rfl h.still nofun ?_ ?_)
    · rw [frame_setFrame]; rfl
    · rfl
    · rw [placed_setFrame]
      cases q <;> simp [State.placed, FrameState.joins]
    · exact .rfl
    · exact .rfl

theorem State.Spare.makeFree (h : s.Spare k f) (hp : (s.frame f).poisoned = false) : (s.makeFree f).Agrees k := by
  refine State.Agrees.calm (h.settle { s.frame f with state := .free, retirePending := false } (fun g => ?_) (fun p => ?_)
    (fun q => ?_) rfl h.still (fun _ => hp) ?_ ?_) (calm_examineRise _)
  · rw [frame_setFrame]; rfl
  · rfl
  · rw [placed_setFrame]
    cases q <;> simp [State.placed, FrameState.joins]
  · exact .rfl
  · exact .rfl

/-! ### Frames taken from their lists -/

/-- A frame taken from the free queue (R31–R33). -/
theorem State.Agrees.popFree (h : s.Agrees k) (hf : f ∈ s.freeQueue) :
    State.Spare { s with freeQueue := s.freeQueue.erase f } k f := by
  have hheld : (s.frame f).state.isHeld = false := by rw [h.state_of_mem (q := .free) hf]; rfl
  have popped : State.Agrees { s with freeQueue := s.freeQueue.erase f } { k with loose := f :: k.loose } :=
    ⟨h.census.loosen (k := .free) hf rfl fun q hq => by cases q; exacts [rfl, absurd rfl hq, rfl, rfl],
      h.lists, h.marks, h.pending⟩
  exact popped.spare hheld

/-- The head of the free queue taken. -/
theorem State.Agrees.popFreeHead (h : s.Agrees k) {rest : List FrameId} (hq : s.freeQueue = f :: rest) :
    State.Spare { s with freeQueue := rest } k f := by
  have := h.popFree (f := f) (by simp [hq])
  rwa [hq, List.erase_cons_head] at this

/-- A frame taken from the clear queue (R27). -/
theorem State.Agrees.popClear (h : s.Agrees k) (hf : f ∈ s.clearQueue) :
    State.Spare { s with clearQueue := s.clearQueue.erase f } k f := by
  have hheld : (s.frame f).state.isHeld = false := by rw [h.state_of_mem (q := .clear) hf]; rfl
  have popped : State.Agrees { s with clearQueue := s.clearQueue.erase f } { k with loose := f :: k.loose } :=
    ⟨h.census.loosen (k := .clear) hf rfl fun q hq => by cases q; exacts [absurd rfl hq, rfl, rfl, rfl],
      h.lists, h.marks, h.pending⟩
  exact popped.spare hheld

/-- The head copy job taken from its queue: its target stands in no list, and its source or page is no queued job's
(R76). -/
theorem State.Agrees.popJob (h : s.Agrees {}) {j : CopyJob} {rest : List CopyJob} (hj : s.jobs = j :: rest) :
    State.Agrees { s with jobs := rest }
      { loose := [j.target], movers := j.moves?.toList, pages := j.entry?.toList } := by
  have htarget : j.target ∈ s.placed .target := by simp [State.placed, hj]
  have hsources : j.moves?.toList ++ rest.filterMap CopyJob.moves? = s.jobs.filterMap CopyJob.moves? := by
    rw [hj, List.filterMap_cons]
    cases j.moves? <;> rfl
  have hpages : j.entry?.toList ++ rest.filterMap CopyJob.entry? = s.jobs.filterMap CopyJob.entry? := by
    rw [hj, List.filterMap_cons]
    cases j.entry? <;> rfl
  refine ⟨h.census.loosen htarget ?_ ?_, h.lists, ?_, ?_⟩
  · simp [State.placed, hj]
  · intro q hq
    cases q
    exacts [rfl, rfl, rfl, absurd rfl hq]
  · exact hsources ▸ h.marks
  · exact hpages ▸ h.pending

/-- A FREE frame leaves the free queue and is retired (R33). -/
theorem State.Agrees.retireFree (h : s.Agrees { k with suspect := f :: k.suspect }) (hf : (s.frame f).state = .free)
    (hl : f ∉ k.loose) (d : Bool) : (s.retireFree f d).Agrees k := by
  have hmem : f ∈ s.freeQueue := (h.census.mem .free f).2 ⟨by rw [hf]; rfl, hl⟩
  have popped := h.popFree hmem
  have calm := calm_examineFall { s with freeQueue := s.freeQueue.erase f }
  have spare : State.Spare (State.examineFall { s with freeQueue := s.freeQueue.erase f }) k f := by
    refine ⟨?_, by rw [calm.frame]; exact popped.bare, by rw [calm.frame]; exact popped.still⟩
    exact (popped.agrees.mono (List.Subset.refl _) (suspect := f :: k.suspect) (by simp)).calm calm
  exact spare.retireFrame d

/-- A FREE frame that may be poisoned is dealt with (R99). -/
theorem State.Agrees.resolveFree (h : s.Agrees { k with suspect := f :: k.suspect }) (hf : (s.frame f).state = .free)
    (hl : f ∉ k.loose) : (s.resolveFree f).Agrees k := by
  unfold State.resolveFree
  dsimp only
  split
  · exact h.retireFree hf hl false
  · next hp =>
    have sound := h.dropSuspect fun _ => by simpa using hp
    split
    · split
      · exact h.retireFree hf hl true
      · exact sound.flags f _ rfl rfl fun _ => Or.inl rfl
    · exact sound

end Sys2Proof.Machine
end

section
/-! SUPPORT. Pages made present and absent, copy jobs made, storage errors: each keeps the agreement, and so does every
effect of a request. -/

namespace Sys2Proof.Machine

variable {s t : State} {k : Slack} {f : FrameId} {p : BackRef}

/-! ### Pages -/

theorem frameOf_congr (hn : s.entry p = t.entry p) : s.frameOf p = t.frameOf p := by
  unfold State.frameOf
  rw [hn]

/-- A page made absent, its frame left HELD, perhaps with no page (R13). -/
theorem State.Agrees.detachPage (h : s.Agrees k) {e : MapEntry} (he : s.entry p = some e) :
    ((s.setEntry p none).setFrame e.frame
      { s.frame e.frame with state := .held ((s.frame e.frame).state.refs.erase p) }).Agrees
      { k with empty := e.frame :: k.empty } := by
  set r : FrameRecord := { s.frame e.frame with state := .held ((s.frame e.frame).state.refs.erase p) } with hr
  set t := (s.setEntry p none).setFrame e.frame r with ht
  have hself : t.frame e.frame = r := frame_setFrame_same ..
  have hother : ∀ g, g ≠ e.frame → t.frame g = s.frame g := fun g hg => by
    rw [ht, frame_setFrame_other _ _ _ _ hg, frame_setEntry]
  have hentry : ∀ q, t.entry q = if q = p then none else s.entry q := fun q => by
    rw [ht, entry_setFrame, entry_setEntry_of_some he]
  refine ⟨?_, ?_, ?_, ?_⟩
  · refine (h.census.keep fun g => ?_).of_placed fun q => by rw [ht, placed_setFrame, placed_setEntry]
    by_cases hg : g = e.frame
    · rw [hg, hself, h.held he]; rfl
    · rw [hother g hg]
  · refine h.lists.detach (frameOf_eq_some.2 ⟨e, he, rfl⟩) (by rw [hself, hr]; rfl) (fun g hg => by rw [hother g hg]) ?_ ?_
    · unfold State.frameOf; rw [hentry, if_pos rfl]; rfl
    · intro q hq
      refine frameOf_congr ?_
      rw [hentry, if_neg hq]
  · have hjobs : t.jobs = s.jobs := by rw [ht, setFrame_jobs, setEntry_jobs]
    rw [hjobs]
    refine h.marks.update e.frame hother (by rw [hself]) ?_ ?_ ?_ .rfl (fun g hg => Or.inr (List.mem_cons_of_mem _ hg))
      fun g hg => Or.inr hg
    · rw [hself]; exact fun _ => rfl
    · exact fun _ => Or.inr List.mem_cons_self
    · rw [hself]; nofun
  · have hjobs : t.jobs = s.jobs := by rw [ht, setFrame_jobs, setEntry_jobs]
    rw [hjobs]
    refine ⟨fun q x hx => ?_, h.pending.nodup⟩
    rw [hentry] at hx
    split at hx
    · cases hx
    · exact h.pending.mem q x hx

/-- A detach keeps the agreement (R21, R53). -/
theorem State.Agrees.detach (h : s.Agrees k) (hl : ∀ f ∈ k.loose, (s.frame f).state.isHeld = false) (p : BackRef) :
    (s.detach p).1.Agrees k := by
  unfold State.detach
  split
  · exact h
  · next e he =>
    have dropped := h.detachPage he
    have hself : (((s.setEntry p none).setFrame e.frame
      { s.frame e.frame with state := .held ((s.frame e.frame).state.refs.erase p) }).frame e.frame) = _ :=
      frame_setFrame_same ..
    dsimp only
    split
    · next hnil =>
      dsimp only
      split
      · next hm => exact dropped.dropEmpty fun _ => by rw [hself]; exact hm
      · next hm =>
        refine (dropped.spare_of_held (by rw [hself, hnil]) (by rw [hself]; simpa using hm) fun hmem => ?_).release
        have := hl _ hmem
        rw [h.held he] at this
        cases this
    · next hnil =>
      refine dropped.dropEmpty fun hx => absurd ?_ hnil
      rw [hself, FrameState.held.injEq] at hx
      exact hx

/-- An absent page made present on a spare frame (R57, R82). -/
theorem State.Spare.attach (h : s.Spare k f) (hp : s.entry p = none) {e : MapEntry} (hf : e.frame = f)
    (hc : e.copyPending = true ↔ p ∈ k.pages ++ s.jobs.filterMap CopyJob.entry?)
    (frame : ∀ g, t.frame g = if g = f then { s.frame f with state := .held [p] } else s.frame g)
    (entry : ∀ q, t.entry q = if q = p then some e else s.entry q) (placed : ∀ q, t.placed q = s.placed q)
    (jobs : t.jobs = s.jobs) : t.Agrees k := by
  have hself : t.frame f = { s.frame f with state := .held [p] } := by rw [frame, if_pos rfl]
  have hother : ∀ g, g ≠ f → t.frame g = s.frame g := fun g hg => by rw [frame, if_neg hg]
  refine ⟨?_, ?_, ?_, ?_⟩
  · refine h.agrees.census.settle (fun g hg => by rw [hother g hg]) fun q => ?_
    rw [placed, hself]
    exact (List.append_nil _).symm
  · refine h.agrees.lists.attach (p := p) (f := f) ?_ ?_ (fun g hg => by rw [hother g hg]) ?_ fun q hq => ?_
    · unfold State.frameOf; rw [hp]; rfl
    · rw [hself, h.bare]; rfl
    · unfold State.frameOf; rw [entry, if_pos rfl]; simp [hf]
    · exact frameOf_congr (by rw [entry, if_neg hq])
  · rw [jobs]
    refine h.agrees.marks.update f hother (by rw [hself]) ?_ ?_ ?_ .rfl (fun g hg => List.mem_cons.1 hg)
      fun g hg => List.mem_cons.1 hg
    · rw [hself]; exact fun _ => rfl
    · rw [hself]; nofun
    · rw [hself]; nofun
  · rw [jobs]
    refine ⟨fun q x hx => ?_, h.agrees.pending.nodup⟩
    rw [entry] at hx
    split at hx
    · next hq => cases hx; rw [hq]; exact hc
    · exact h.agrees.pending.mem q x hx

/-- Whether a queued PRIVATE job names a page (R58). -/
theorem privateJobFor_iff : s.privateJobFor p = true ↔ p ∈ s.jobs.filterMap CopyJob.entry? := by
  have kind : ∀ j : CopyJob, j.kind = .privateCopy p ↔ j.entry? = some p := by
    rintro ⟨⟨q⟩ | r, _, _, _, _⟩ <;> simp [CopyJob.entry?]
  simp only [State.privateJobFor, List.any_eq_true, decide_eq_true_eq, List.mem_filterMap, kind]

theorem State.Agrees.mapPage (h : s.Agrees {}) {rest : List FrameId} (hq : s.freeQueue = f :: rest) (hp : s.entry p = none)
    (hr : s.Room p) : (State.mapPage { s with freeQueue := rest } p f).Agrees {} := by
  refine (h.popFreeHead hq).attach (p := p) hp (e := ⟨f, false, false, false, s.privateJobFor p⟩) rfl privateJobFor_iff
    (fun g => ?_) (fun q => ?_) (fun q => ?_) ?_
  · unfold State.mapPage
    rw [frame_setEntry, frame_setFrame]
  · exact entry_setEntry_of_room (s := State.setFrame { s with freeQueue := rest } f _) hr _ q
  · unfold State.mapPage
    rw [placed_setEntry, placed_setFrame]
  · unfold State.mapPage
    rw [setEntry_jobs, setFrame_jobs]

/-- An absent page made present on a HELD frame (R72). -/
theorem State.Agrees.clonePage (h : s.Agrees {}) {q : BackRef} {e : MapEntry} (hp : s.entry p = some e)
    (hq : s.entry q = none) (hr : s.Room q) : (s.clonePage p q).Agrees {} := by
  have hframe := frame_clonePage (q := q) hp
  have hself : (s.clonePage p q).frame e.frame = _ := (hframe e.frame).trans (if_pos rfl)
  have hother : ∀ g, g ≠ e.frame → (s.clonePage p q).frame g = s.frame g := fun g hg => (hframe g).trans (if_neg hg)
  have hentry := entry_clonePage (p := p) (by simp [hp]) hr
  have hjobs : (s.clonePage p q).jobs = s.jobs := by
    unfold State.clonePage
    rw [hp]
    dsimp only
    rw [setEntry_jobs, setFrame_jobs]
  refine ⟨?_, ?_, ?_, ?_⟩
  · refine (h.census.keep fun g => ?_).of_placed fun roll => ?_
    · by_cases hg : g = e.frame
      · rw [hg, hself, h.held hp]; rfl
      · rw [hother g hg]
    · unfold State.clonePage
      rw [hp]
      dsimp only
      rw [placed_setEntry, placed_setFrame]
  · refine h.lists.attach (p := q) (f := e.frame) ?_ ?_ (fun g hg => by rw [hother g hg]) ?_ fun u hu => ?_
    · unfold State.frameOf; rw [hq]; rfl
    · rw [hself]; rfl
    · unfold State.frameOf; rw [hentry, if_pos rfl, hp]; rfl
    · exact frameOf_congr (by rw [hentry, if_neg hu])
  · rw [hjobs]
    refine h.marks.update e.frame hother (by rw [hself]) ?_ ?_ ?_ .rfl (fun g hg => Or.inr hg) fun g hg => Or.inr hg
    · rw [hself]; exact fun _ => rfl
    · rw [hself]; simp
    · rw [hself]; nofun
  · rw [hjobs]
    refine ⟨fun u x hx => ?_, h.pending.nodup⟩
    rw [hentry] at hx
    split at hx
    · next hu =>
      rw [hp] at hx
      cases hx
      rw [hu]
      exact privateJobFor_iff
    · exact h.pending.mem u x hx

/-! ### Copy jobs -/

/-- A frame becomes moving, its MOVE job to be made (R85). -/
theorem State.Agrees.setMoving (h : s.Agrees {}) (hheld : (s.frame f).state.isHeld = true)
    (hm : (s.frame f).moving = false) :
    (s.setFrame f { s.frame f with moving := true }).Agrees { movers := [f] } := by
  have hself : ((s.setFrame f { s.frame f with moving := true }).frame f) = _ := frame_setFrame_same ..
  have hother : ∀ g, g ≠ f → (s.setFrame f { s.frame f with moving := true }).frame g = s.frame g :=
    fun g hg => frame_setFrame_other _ _ _ _ hg
  have hstate : ∀ g, ((s.setFrame f { s.frame f with moving := true }).frame g).state = (s.frame g).state := fun g => by
    by_cases hg : g = f
    · rw [hg, hself]
    · rw [hother g hg]
  refine ⟨h.census.keep fun g => by rw [hstate], ?_, ⟨fun g => ?_, ?_, fun g => ?_, fun g => ?_, fun g => ?_⟩, h.pending⟩
  · simp only [hstate]; exact h.lists
  · by_cases hg : g = f
    · rw [hg, hself]; simp
    · rw [hother g hg, h.marks.moving]; simp [hg]
  · refine List.nodup_cons.2 ⟨fun hx => ?_, h.marks.nodup⟩
    rw [(h.marks.moving f).2 hx] at hm
    cases hm
  · rw [hstate]
    by_cases hg : g = f
    · rw [hg]; exact fun _ => hheld
    · rw [hother g hg]; exact h.marks.held g
  · rw [hstate]
    by_cases hg : g = f
    · rw [hg, hself]; exact fun _ => Or.inl rfl
    · rw [hother g hg]; exact h.marks.empty g
  · rw [hstate]
    by_cases hg : g = f
    · rw [hg, hself]; exact h.marks.sound f
    · rw [hother g hg]; exact h.marks.sound g

/-- A page becomes copy-pending, its PRIVATE job to be made (R78). -/
theorem State.Agrees.setPending (h : s.Agrees {}) {e : MapEntry} (he : s.entry p = some e) (hc : e.copyPending = false) :
    (s.setEntry p (some { e with copyPending := true })).Agrees { pages := [p] } := by
  refine h.setEntry (e' := { e with copyPending := true }) (pages := [p]) he rfl (fun q x hx => ?_)
      (List.nodup_cons.2 ⟨fun hx => ?_, h.pending.nodup⟩)
  · split at hx
    · next hq => cases hx; simp [hq]
    · next hq =>
      rw [h.pending.mem q x hx]
      simp [hq]
  · rw [(h.pending.mem p e he).2 hx] at hc
    cases hc

/-- A copy job made, its source or page set for it (R75, R78, R85). -/
theorem State.Agrees.makeJob {kind : JobKind} {source : FrameId} {waiters : List SlotRef} {movers : List FrameId}
    {pages : List BackRef} (h : s.Agrees { movers := movers, pages := pages })
    (hm : ∀ target phase, (CopyJob.mk kind source target waiters phase).moves?.toList = movers)
    (hp : ∀ target phase, (CopyJob.mk kind source target waiters phase).entry?.toList = pages) (hq : s.freeQueue ≠ []) :
    (s.makeJob kind source waiters).Agrees {} := by
  rcases makeJob_cases s kind source waiters with ⟨hnil, _⟩ | ⟨target, rest, phase, hcons, he⟩
  · exact absurd hnil hq
  · rw [he]
    have filter : ∀ {α : Type} (g : CopyJob → Option α) (l : List α) (j : CopyJob), (g j).toList = l →
        ([] ++ (s.jobs ++ [j]).filterMap g).Perm (l ++ s.jobs.filterMap g) := by
      intro α g l j hl
      have hone : [j].filterMap g = l := by rw [← hl]; cases hj : g j <;> simp [hj]
      rw [List.nil_append, List.filterMap_append, hone]
      exact List.perm_append_comm
    have made := (h.popFreeHead hcons).settle (movers := []) (pages := [])
      (t := State.setFrame { s with freeQueue := rest, jobs := s.jobs ++ [CopyJob.mk kind source target waiters phase] }
        target { s.frame target with state := .target })
      { s.frame target with state := .target } (fun g => frame_setFrame ..) (fun q => rfl)
      (fun q => by rw [placed_setFrame]; cases q <;> simp [State.placed, FrameState.joins]) rfl
      (h.popFreeHead hcons).still nofun (filter _ _ _ (hm target phase)) (filter _ _ _ (hp target phase))
    refine State.Agrees.calm ?_ (calm_examineFall _)
    split
    · exact made.sameRecords (sameRecords_present ..)
    · exact made

/-! ### Storage errors -/

/-- A storage error changes no frame's state and no moving flag. -/
theorem commonEffect_state (s : State) (finder : Finder) (e : ErrorEvent) (g : FrameId) :
    ((s.commonEffect finder e).frame g).state = (s.frame g).state ∧
      ((s.commonEffect finder e).frame g).moving = (s.frame g).moving := by
  have keeps : ∀ r : FrameRecord, r.state = (s.frame e.frame).state → r.moving = (s.frame e.frame).moving →
      ((s.setFrame e.frame r).frame g).state = (s.frame g).state ∧
        ((s.setFrame e.frame r).frame g).moving = (s.frame g).moving := by
    intro r hs hm
    rw [frame_setFrame]
    split
    · next hg => rw [hg]; exact ⟨hs, hm⟩
    · exact ⟨rfl, rfl⟩
  unfold State.commonEffect
  dsimp only
  split
  · exact keeps _ rfl rfl
  · split
    · exact keeps _ rfl rfl
    · rw [frame_raiseBoth]; exact keeps _ rfl rfl

theorem State.Agrees.commonEffect (h : s.Agrees k) (finder : Finder) (e : ErrorEvent)
    (hs : (s.frame e.frame).state = .free → e.frame ∈ k.suspect) : (s.commonEffect finder e).Agrees k := by
  unfold State.commonEffect
  dsimp only
  split
  · exact h.flags e.frame _ rfl rfl fun _ => Or.inl rfl
  · have poisoned := h.flags e.frame ((s.frame e.frame).afterUncorrectable e.word finder) rfl rfl fun hf => Or.inr (hs hf)
    split
    · exact poisoned
    · exact poisoned.calm (calm_raiseBoth ..)

theorem commonEffects_state (s : State) (finder : Finder) (es : List ErrorEvent) (g : FrameId) :
    ((s.commonEffects finder es).frame g).state = (s.frame g).state ∧
      ((s.commonEffects finder es).frame g).moving = (s.frame g).moving :=
  foldl_keeps (fun x : State => (x.frame g).state = (s.frame g).state ∧ (x.frame g).moving = (s.frame g).moving) _ es
    (fun x e _ hx => by rw [(commonEffect_state x finder e g).1, (commonEffect_state x finder e g).2]; exact hx) s ⟨rfl, rfl⟩

/-- The errors of an access that reads one frame (R4): a FREE frame may be poisoned by them. -/
theorem State.Agrees.commonEffects (h : s.Agrees k) (finder : Finder) (es : List ErrorEvent) (hes : ∀ e ∈ es, e.frame = f) :
    (s.commonEffects finder es).Agrees { k with suspect := f :: k.suspect } :=
  foldl_keeps (fun x : State => x.Agrees { k with suspect := f :: k.suspect }) _ es
    (fun _ e he hx => hx.commonEffect finder e fun _ => by rw [hes e he]; exact List.mem_cons_self) s
    (h.mono (List.Subset.refl _) (List.subset_cons_self ..))

/-! ### Every effect of a request -/

theorem effect_agrees (he : s.Effect t) (h : s.Agrees {}) : t.Agrees {} := by
  cases he with
  | records hr ho => exact h.sameRecords hr
  | lowMark v hv => exact h.congr (fun _ => rfl) (fun _ => rfl) (fun q => by cases q <;> rfl) rfl rfl
  | scrub interval threshold timer hi ht hw =>
    exact h.congr (fun _ => rfl) (fun _ => rfl) (fun q => by cases q <;> rfl) rfl rfl
  | space sp r hp hs => exact h.congr (fun _ => rfl) hp (fun q => by cases q <;> rfl) rfl rfl
  | entry p e e' he hf hc => exact h.entryFlags he hf hc
  | detached p => exact h.detach nofun p
  | mapped p f rest hq hp hr => exact h.mapPage hq hp hr
  | cloned p q e hp hq hr hl => exact h.clonePage hp hq hr
  | retired f d hf hd =>
    exact (h.mono (List.Subset.refl _) (suspect := [f]) (List.nil_subset _)).retireFree hf List.not_mem_nil d
  | flagged f flag => exact h.flags f _ rfl rfl fun _ => Or.inl rfl
  | moved f requester hm =>
    obtain ⟨hheld, _, hstill, _, hq⟩ := moveRefusal_eq_none hm
    exact (h.setMoving hheld hstill).makeJob (fun _ _ => rfl) (fun _ _ => rfl) hq
  | copied p e k he hc hj hq =>
    exact (h.setPending he hc).makeJob (fun _ _ => rfl) (fun _ _ => rfl) (by simpa using hq)
  | error finder e hn =>
    obtain ⟨p, en, hp, hf⟩ := hn
    refine h.commonEffect finder e fun hfree => ?_
    rw [← hf, h.held hp] at hfree
    cases hfree

theorem effects_agree (he : s.Effects t) (h : s.Agrees {}) : t.Agrees {} := by
  induction he with
  | refl => exact h
  | tail _ he ih => exact effect_agrees he ih

end Sys2Proof.Machine
end

section
/-! SUPPORT. The completions of a clear, a copy and a check keep the agreement (R27, R76, R80–R89, R98–R101). -/

namespace Sys2Proof.Machine

variable {s t : State} {k : Slack} {f g : FrameId} {p : BackRef}

/-! ### What the operations leave of other frames -/

theorem frame_release_other (s : State) (h : g ≠ f) : (s.release f).frame g = s.frame g := by
  unfold State.release
  split
  · rw [frame_retireFrame, if_neg h]
  · rw [frame_kickClearer, frame_setFrame_other _ _ _ _ h]; rfl

theorem frame_retireFree_other (s : State) (d : Bool) (h : g ≠ f) : (s.retireFree f d).frame g = s.frame g := by
  unfold State.retireFree
  rw [frame_retireFrame, if_neg h, (calm_examineFall _).frame]
  rfl

theorem frame_resolveFree_other (s : State) (h : g ≠ f) : (s.resolveFree f).frame g = s.frame g := by
  unfold State.resolveFree
  dsimp only
  split_ifs
  · exact frame_retireFree_other s _ h
  · exact frame_retireFree_other s _ h
  · exact frame_setFrame_other _ _ _ _ h
  · rfl

@[simp] theorem frame_retarget (s : State) (f g : FrameId) (p : BackRef) : (s.retarget f p).frame g = s.frame g := by
  unfold State.retarget
  split <;> simp

@[simp] theorem jobs_retarget (s : State) (f : FrameId) (p : BackRef) : (s.retarget f p).jobs = s.jobs := by
  unfold State.retarget
  split <;> simp

@[simp] theorem placed_retarget (s : State) (f : FrameId) (p : BackRef) (q : Roll) :
    (s.retarget f p).placed q = s.placed q := by
  unfold State.retarget
  split <;> simp

theorem entry_retarget (s : State) (f : FrameId) (p q : BackRef) :
    (s.retarget f p).entry q = if q = p then (s.entry p).map fun e => { e with frame := f } else s.entry q := by
  unfold State.retarget
  cases he : s.entry p with
  | none =>
    dsimp only
    split
    · next hq => rw [hq, he]; rfl
    · rfl
  | some e => exact entry_setEntry_of_some he _ q

/-- The pages of a list made to name another frame (R88). -/
theorem entry_retargets (f : FrameId) (ps : List BackRef) (q : BackRef) : ∀ s : State,
    (ps.foldl (fun x p => x.retarget f p) s).entry q =
      if q ∈ ps then (s.entry q).map fun e => { e with frame := f } else s.entry q := by
  induction ps with
  | nil => intro s; simp
  | cons p rest ih =>
    intro s
    rw [List.foldl_cons, ih, entry_retarget]
    by_cases h1 : q ∈ rest <;> by_cases h2 : q = p
    · subst h2; cases s.entry q <;> simp [h1]
    · simp [h1, h2]
    · subst h2; simp [h1]
    · simp [h1, h2]

theorem retargets_keep (f : FrameId) (ps : List BackRef) (s : State) :
    (∀ g, (ps.foldl (fun x p => x.retarget f p) s).frame g = s.frame g) ∧
      (ps.foldl (fun x p => x.retarget f p) s).jobs = s.jobs ∧
      ∀ q, (ps.foldl (fun x p => x.retarget f p) s).placed q = s.placed q :=
  foldl_keeps (fun x : State => (∀ g, x.frame g = s.frame g) ∧ x.jobs = s.jobs ∧ ∀ q, x.placed q = s.placed q) _ ps
    (fun x p _ hx => by simpa using hx) s ⟨fun _ => rfl, rfl, fun _ => rfl⟩

/-! ### Flags cleared at a job's end -/

/-- The page of the job leaves copy-pending (R80). -/
theorem State.Agrees.clearCopyPending (h : s.Agrees { k with pages := p :: k.pages }) : (s.clearCopyPending p).Agrees k := by
  obtain ⟨hp, hn⟩ := List.nodup_cons.1 h.pending.nodup
  unfold State.clearCopyPending
  split
  · next he =>
    refine ⟨h.census, h.lists, h.marks, fun q x hx => ?_, hn⟩
    have hq : q ≠ p := by
      rintro rfl
      rw [he] at hx
      cases hx
    rw [h.pending.mem q x hx]
    simp [hq]
  · next e he =>
    refine h.setEntry (e' := { e with copyPending := false }) (pages := k.pages) he rfl (fun q x hx => ?_) hn
    split at hx
    · next hq =>
      cases hx
      rw [hq]
      exact ⟨nofun, fun hx => absurd hx hp⟩
    · next hq =>
      rw [h.pending.mem q x hx]
      simp [hq]

/-- The source of a MOVE job stops moving (R17); HELD with no page it may be released. -/
theorem State.Agrees.stopMoving (h : s.Agrees { k with movers := f :: k.movers }) (r : FrameRecord)
    (hs : r.state = (s.frame f).state) (hm : r.moving = false) :
    (s.setFrame f r).Agrees { k with empty := f :: k.empty } := by
  obtain ⟨hf, hn⟩ := List.nodup_cons.1 h.marks.nodup
  have hself : (s.setFrame f r).frame f = r := frame_setFrame_same ..
  have hother : ∀ g, g ≠ f → (s.setFrame f r).frame g = s.frame g := fun g hg => frame_setFrame_other _ _ _ _ hg
  have hheld : (s.frame f).state.isHeld = true := h.marks.held f ((h.marks.moving f).2 List.mem_cons_self)
  have hstate : ∀ g, ((s.setFrame f r).frame g).state = (s.frame g).state := fun g => by
    by_cases hg : g = f
    · rw [hg, hself, hs]
    · rw [hother g hg]
  refine ⟨h.census.keep fun g => by rw [hstate], ?_, ⟨fun g => ?_, hn, fun g => ?_, fun g => ?_, fun g => ?_⟩, h.pending⟩
  · simp only [hstate]; exact h.lists
  · by_cases hg : g = f
    · rw [hg, hself, hm]
      exact ⟨nofun, fun hx => absurd hx hf⟩
    · rw [hother g hg, h.marks.moving]
      simp [hg]
  · by_cases hg : g = f
    · rw [hg, hself, hm]; nofun
    · rw [hother g hg]; exact h.marks.held g
  · by_cases hg : g = f
    · rw [hg]; exact fun _ => Or.inr List.mem_cons_self
    · rw [hother g hg]
      exact fun hx => (h.marks.empty g hx).imp_right fun hx => List.mem_cons_of_mem _ hx
  · rw [hstate]
    by_cases hg : g = f
    · rw [hg]
      intro hfree
      rw [hfree] at hheld
      cases hheld
    · rw [hother g hg]; exact h.marks.sound g

theorem State.Agrees.deferredRelease (h : s.Agrees { k with empty := f :: k.empty }) (hm : (s.frame f).moving = false)
    (hl : f ∉ k.loose) : (s.deferredRelease f).Agrees k := by
  unfold State.deferredRelease
  split
  · next hf => exact (h.spare_of_held hf hm hl).release
  · next hf => exact h.dropEmpty fun hx => absurd hx hf

/-! ### The completion of a clear -/

theorem State.Agrees.completeClear (h : s.Agrees {}) (hf : f ∈ s.clearQueue) : (s.completeClear f).Agrees {} := by
  rw [completeClear_eq]
  refine (State.Agrees.calm ?_ (calm_examinedClear s f)).kickClearer
  have spare := h.popClear hf
  unfold State.resolveCleared
  dsimp only
  split_ifs with hp
  · exact spare.retireFrame false
  · exact spare.retireFrame true
  · exact spare.makeFree (by simpa using hp)

/-! ### The completion of a copy -/

/-- The slack of a job taken from its queue. -/
def CopyJob.slack (j : CopyJob) : Slack := { loose := [j.target], movers := j.moves?.toList, pages := j.entry?.toList }

variable {j : CopyJob}

/-- The source of a MOVE job is moving, so it is HELD and is not the job's target. -/
theorem State.Agrees.source_moving (h : s.Agrees k) (hk : j.source ∈ k.movers) (ht : (s.frame j.target).state = .target) :
    (s.frame j.source).moving = true ∧ (s.frame j.source).state.isHeld = true ∧ j.source ≠ j.target := by
  have hm := (h.marks.moving j.source).2 (List.mem_append_left _ hk)
  have hheld := h.marks.held _ hm
  refine ⟨hm, hheld, fun he => ?_⟩
  rw [he, ht] at hheld
  cases hheld

theorem State.Agrees.freeSourceResolved (h : s.Agrees { j.slack with suspect := [j.source] })
    (ht : (s.frame j.target).state = .target) :
    (s.freeSourceResolved j).Agrees j.slack ∧ ((s.freeSourceResolved j).frame j.target).state = .target := by
  unfold State.freeSourceResolved
  split
  · split
    · next hfree =>
      have hne : j.target ≠ j.source := fun e => by
        rw [← e, ht] at hfree
        cases hfree
      refine ⟨State.Agrees.resolveFree (k := j.slack) h hfree ?_, ?_⟩
      · exact fun hx => hne (List.mem_singleton.1 hx).symm
      · rw [frame_resolveFree_other s hne]; exact ht
    · next hfree => exact ⟨State.Agrees.dropSuspect (k := j.slack) h fun hx => absurd hx hfree, ht⟩
  · next requester hk =>
    have hmem : j.source ∈ j.slack.movers := by simp [CopyJob.slack, CopyJob.moves?, hk]
    obtain ⟨_, hheld, _⟩ := h.source_moving hmem ht
    refine ⟨State.Agrees.dropSuspect (k := j.slack) h fun hx => ?_, ht⟩
    rw [hx] at hheld
    cases hheld

/-- The target released, with the job's other slack. -/
theorem State.Agrees.releaseTarget (h : s.Agrees { k with loose := j.target :: k.loose })
    (ht : (s.frame j.target).state = .target) : (s.release j.target).Agrees k :=
  (h.spare (by rw [ht]; rfl)).release

theorem slack_private (hk : j.kind = .privateCopy p) : j.slack = { loose := [j.target], pages := [p] } := by
  simp [CopyJob.slack, CopyJob.moves?, CopyJob.entry?, hk]

theorem slack_move {requester : Option (LinkId × Byte)} (hk : j.kind = .move requester) :
    j.slack = { loose := [j.target], movers := [j.source] } := by
  simp [CopyJob.slack, CopyJob.moves?, CopyJob.entry?, hk]

/-- The page of a PRIVATE job given its own copy: it leaves its frame's list and names the target (R82). -/
theorem State.Agrees.givePrivate (h : s.Agrees { loose := [j.target], pages := [p] })
    (ht : (s.frame j.target).state = .target) {e : MapEntry} (he : s.entry p = some e) (hf : e.frame = j.source)
    (hshared : 1 < (s.frame j.source).state.refs.length) :
    let detached := s.setFrame j.source
      { s.frame j.source with state := .held ((s.frame j.source).state.refs.erase p) }
    let attached := detached.setFrame j.target { detached.frame j.target with state := .held [p] }
    ((attached.retarget j.target p).clearCopyPending p).Agrees {} := by
  intro detached attached
  have hne : j.target ≠ j.source := fun e => by
    rw [← e, ht] at hshared
    exact absurd hshared (by decide)
  obtain ⟨hp, _⟩ := List.nodup_cons.1 h.pending.nodup
  set absent := (s.setEntry p none).setFrame j.source
    { s.frame j.source with state := .held ((s.frame j.source).state.refs.erase p) } with habsent
  have hstill : absent.Agrees { loose := [j.target], pages := [p] } := by
    have dropped := h.detachPage he
    rw [hf] at dropped
    refine dropped.dropEmpty fun hx => absurd ?_ (Nat.not_le_of_lt hshared)
    rw [frame_setFrame_same, FrameState.held.injEq] at hx
    have := List.length_erase_of_mem (hf ▸ h.listed he)
    rw [hx] at this
    have hzero : ([] : List BackRef).length = 0 := rfl
    omega
  have hentry : ∀ q, absent.entry q = if q = p then none else s.entry q := fun q => by
    rw [habsent, entry_setFrame, entry_setEntry_of_some he]
  have hjobs : absent.jobs = s.jobs := by rw [habsent, setFrame_jobs, setEntry_jobs]
  have hframe : absent.frame j.target = s.frame j.target := by
    rw [habsent, frame_setFrame_other _ _ _ _ hne, frame_setEntry]
  have unnamed : absent.Agrees { loose := [j.target] } := by
    refine ⟨hstill.census, hstill.lists, hstill.marks, fun q x hx => ?_, (List.nodup_cons.1 hstill.pending.nodup).2⟩
    have hq : q ≠ p := by
      rintro rfl
      rw [hentry, if_pos rfl] at hx
      cases hx
    rw [hstill.pending.mem q x hx]
    simp [hq]
  have spare : absent.Spare {} j.target := State.Agrees.spare (k := {}) unnamed (by rw [hframe, ht]; rfl)
  have hattached : ∀ q, attached.entry q = s.entry q := fun q => rfl
  have hretarget : attached.retarget j.target p = attached.setEntry p (some { e with frame := j.target }) := by
    unfold State.retarget
    rw [hattached, he]
  have hgiven : (attached.retarget j.target p).entry p = some { e with frame := j.target } := by
    have hpresent : attached.entry p = some e := he
    rw [hretarget, entry_setEntry_of_some hpresent, if_pos rfl]
  have hclear : (attached.retarget j.target p).clearCopyPending p =
      (attached.retarget j.target p).setEntry p (some { e with frame := j.target, copyPending := false }) := by
    unfold State.clearCopyPending
    rw [hgiven]
  rw [hclear]
  refine spare.attach (p := p) (e := { e with frame := j.target, copyPending := false }) ?_ rfl ?_ (fun g => ?_)
    (fun q => ?_) (fun q => ?_) ?_
  · rw [hentry, if_pos rfl]
  · rw [hjobs]
    exact ⟨nofun, fun hx => absurd hx hp⟩
  · rw [frame_setEntry, frame_retarget, frame_setFrame, hframe]
    by_cases hg : g = j.target
    · rw [if_pos hg, if_pos hg, frame_setFrame_other _ _ _ _ hne]
    · rw [if_neg hg, if_neg hg, habsent, frame_setFrame, frame_setFrame, frame_setEntry]
  · rw [entry_setEntry_of_some hgiven, hentry]
    by_cases hq : q = p
    · rw [if_pos hq, if_pos hq]
    · rw [if_neg hq, if_neg hq, if_neg hq, entry_retarget, if_neg hq, hattached]
  · rw [placed_setEntry, placed_retarget, placed_setFrame, placed_setFrame, habsent, placed_setFrame, placed_setEntry]
  · rw [setEntry_jobs, jobs_retarget, setFrame_jobs, setFrame_jobs, hjobs]

theorem State.Agrees.resolvePrivate (h : s.Agrees { loose := [j.target], pages := [p] })
    (ht : (s.frame j.target).state = .target) (bad : Bool) : (s.resolvePrivate j p bad).Agrees {} := by
  have dropped : ((s.release j.target).clearCopyPending p).Agrees {} :=
    State.Agrees.clearCopyPending (k := {}) (State.Agrees.releaseTarget (k := { pages := [p] }) h ht)
  unfold State.resolvePrivate
  dsimp only
  split_ifs with _ _ hn
  · exact dropped.calm (calm_failWaiters ..)
  · exact dropped.calm (calm_slotReady ..)
  · exact dropped.calm (calm_slotReady ..)
  · rw [not_or, Nat.not_le] at hn
    obtain ⟨hnames, hshared⟩ := hn
    cases he : s.entry p with
    | none => simp [he] at hnames
    | some e =>
      have hf : e.frame = j.source := by simpa [he] using hnames
      exact (h.givePrivate ht he hf hshared).calm (calm_slotReady ..)

/-- A MOVE job's pages carried from source to target (R87, R88): the source is left HELD with no page, still moving. -/
theorem State.Agrees.carry (h : s.Agrees { loose := [j.target], movers := [j.source] })
    (ht : (s.frame j.target).state = .target) :
    (s.carry j).Agrees { movers := [j.source] } ∧ ((s.carry j).frame j.source).state = .held [] ∧
      ((s.carry j).frame j.source).moving = true := by
  obtain ⟨hm, hheld, hne⟩ := h.source_moving List.mem_cons_self ht
  have hrefs := held_refs_of_isHeld hheld
  unfold State.carry
  dsimp only
  refine ⟨?_, by rw [frame_setFrame_same], ?_⟩
  · split
    · next hnil =>
      have released : (s.release j.target).Agrees { movers := [j.source] } :=
        State.Agrees.releaseTarget (k := { movers := [j.source] }) h ht
      refine released.flags j.source _ ?_ rfl fun _ => Or.inl rfl
      rw [frame_release_other s hne, hrefs, hnil]
    · next hcons =>
      obtain ⟨hframe, hjobs, hplaced⟩ := retargets_keep j.target (s.frame j.source).state.refs s
      have hentry := fun q => entry_retargets j.target (s.frame j.source).state.refs q s
      set moved := (s.frame j.source).state.refs.foldl (fun x p => x.retarget j.target p) s
      set given := moved.setFrame j.target { s.frame j.target with state := .held (s.frame j.source).state.refs } with hgiven
      set left := given.setFrame j.source { given.frame j.source with state := .held [] } with hleft
      have hsource : given.frame j.source = s.frame j.source := by
        rw [hgiven, frame_setFrame_other _ _ _ _ hne, hframe]
      have hgtarget : given.frame j.target = { s.frame j.target with state := .held (s.frame j.source).state.refs } :=
        frame_setFrame_same ..
      have hgother : ∀ g, g ≠ j.target → given.frame g = s.frame g := fun g hg => by
        rw [hgiven, frame_setFrame_other _ _ _ _ hg, hframe]
      have hlsource : left.frame j.source = { s.frame j.source with state := .held [] } := by
        rw [hleft, frame_setFrame_same, hsource]
      have hlother : ∀ g, g ≠ j.source → left.frame g = given.frame g := fun g hg => frame_setFrame_other _ _ _ _ hg
      have hljobs : left.jobs = s.jobs := by rw [hleft, setFrame_jobs, hgiven, setFrame_jobs, hjobs]
      have hlentry : ∀ q, left.entry q = if q ∈ (s.frame j.source).state.refs then
          (s.entry q).map fun e => { e with frame := j.target } else s.entry q := hentry
      have still : (s.frame j.target).moving = false := h.still (by rw [ht]; rfl)
      refine ⟨?_, ?_, ?_, ?_⟩
      · have placed : Census (fun g => (given.frame g).state) s.placed [] := by
          refine h.census.settle (fun g hg => by rw [hgother g hg]) fun q => ?_
          rw [hgtarget]
          exact (List.append_nil _).symm
        refine (placed.keep fun g => ?_).of_placed fun q => ?_
        · by_cases hg : g = j.source
          · rw [hg, hlsource, hsource, hrefs]; rfl
          · rw [hlother g hg]
        · rw [hleft, placed_setFrame, hgiven, placed_setFrame, hplaced]
      · refine h.lists.carry (a := j.source) (b := j.target) hne (by rw [ht]; rfl) (by rw [hlsource]; rfl) ?_
          (fun g ha hb => ?_)
          fun q => ?_
        · rw [hlother _ hne.symm, hgtarget]; rfl
        · rw [hlother g ha, hgother g hb]
        · unfold State.frameOf
          rw [hlentry]
          have hmem := h.lists.mem q j.source
          unfold State.frameOf at hmem
          by_cases hq : q ∈ (s.frame j.source).state.refs
          · rw [if_pos hq, if_pos (hmem.1 hq)]
            obtain ⟨e, he, _⟩ := Option.map_eq_some_iff.1 (hmem.1 hq)
            rw [he]; rfl
          · rw [if_neg hq, if_neg fun hx => hq (hmem.2 hx)]
      · rw [hljobs]
        have placed : Marks given.frame ([j.source] ++ s.jobs.filterMap CopyJob.moves?) [] [] := by
          refine h.marks.update j.target hgother (by rw [hgtarget]) ?_ ?_ ?_ .rfl
              (fun g hg => Or.inr hg) fun g hg => Or.inr hg
          · rw [hgtarget]; exact fun _ => rfl
          · rw [hgtarget, FrameState.held.injEq]; exact fun hx => absurd hx hcons
          · rw [hgtarget]; nofun
        refine placed.update j.source hlother (by rw [hlsource, hsource]) ?_ ?_ ?_ .rfl (fun g hg => Or.inr hg)
          fun g hg => Or.inr hg
        · rw [hlsource]; exact fun _ => rfl
        · rw [hlsource]; exact fun _ => Or.inl hm
        · rw [hlsource]; nofun
      · rw [hljobs]
        refine ⟨fun q x hx => ?_, h.pending.nodup⟩
        rw [hlentry] at hx
        split at hx
        · obtain ⟨e, he, rfl⟩ := Option.map_eq_some_iff.1 hx
          exact h.pending.mem q e he
        · exact h.pending.mem q x hx
  · rw [frame_setFrame_same]
    dsimp only
    split
    · rw [frame_release_other s hne]; exact hm
    · rw [frame_setFrame_other _ _ _ _ hne, (retargets_keep ..).1]; exact hm

theorem frame_answered (s : State) (waiters : List SlotRef) (requester : Option (LinkId × Byte))
    (status : Status) (f g : FrameId) :
    ((s.slotReady waiters).answerRequester requester status f).frame g = s.frame g :=
  ((calm_slotReady ..).trans (calm_answerRequester ..)).frame g

theorem State.Agrees.answered (h : s.Agrees k) (waiters : List SlotRef) (requester : Option (LinkId × Byte))
    (status : Status) (f : FrameId) : ((s.slotReady waiters).answerRequester requester status f).Agrees k :=
  h.calm ((calm_slotReady ..).trans (calm_answerRequester ..))

theorem State.Agrees.resolveMove (h : s.Agrees { loose := [j.target], movers := [j.source] })
    (ht : (s.frame j.target).state = .target) (requester : Option (LinkId × Byte)) (bad : Bool) :
    (s.resolveMove j requester bad).Agrees {} := by
  obtain ⟨hm, hheld, hne⟩ := h.source_moving List.mem_cons_self ht
  obtain ⟨carried, hstate, _⟩ := h.carry ht
  unfold State.resolveMove
  dsimp only
  split_ifs
  · have stopped : (s.clearMoving j.source).Agrees { loose := [j.target], empty := [j.source] } :=
      State.Agrees.stopMoving (k := { loose := [j.target] }) h _ rfl rfl
    have htarget : ((s.clearMoving j.source).frame j.target).state = .target := by
      unfold State.clearMoving
      rw [frame_setFrame_other _ _ _ _ hne.symm]; exact ht
    have released : ((s.clearMoving j.source).release j.target).Agrees { empty := [j.source] } :=
      State.Agrees.releaseTarget (k := { empty := [j.source] }) stopped htarget
    refine State.Agrees.deferredRelease (k := {}) (released.answered ..) ?_ List.not_mem_nil
    rw [frame_answered, frame_release_other _ hne]
    unfold State.clearMoving
    rw [frame_setFrame_same]
  · have stopped : ((s.carry j).clearMoving j.source).Agrees { empty := [j.source] } :=
      State.Agrees.stopMoving (k := {}) carried _ rfl rfl
    have hself : ((s.carry j).clearMoving j.source).frame j.source = { (s.carry j).frame j.source with moving := false } :=
      frame_setFrame_same ..
    exact (((State.Agrees.spare_of_held (k := {}) stopped (by rw [hself]; exact hstate) (by rw [hself])
      List.not_mem_nil).retireFrame true).answered ..)
  · have stopped : ((s.carry j).setFrame j.source
        { (s.carry j).frame j.source with moving := false, retirePending := false }).Agrees { empty := [j.source] } :=
      State.Agrees.stopMoving (k := {}) carried _ rfl rfl
    exact ((State.Agrees.spare_of_held (k := {}) stopped (by rw [frame_setFrame_same]; exact hstate)
      (by rw [frame_setFrame_same]) List.not_mem_nil).release.answered ..)

theorem State.Agrees.resolveDealt (h : s.Agrees j.slack) (ht : (s.frame j.target).state = .target) (bad : Bool) :
    (s.resolveDealt j bad).Agrees {} := by
  unfold State.resolveDealt State.resolvePoisonedTarget
  dsimp only
  cases hk : j.kind with
  | privateCopy p =>
    rw [slack_private hk] at h
    dsimp only
    split
    · exact (State.Agrees.clearCopyPending (k := {}) (State.Agrees.releaseTarget (k := { pages := [p] }) h ht)).calm
        (calm_slotReady ..)
    · exact h.resolvePrivate ht bad
  | move requester =>
    rw [slack_move hk] at h
    dsimp only
    split
    · have released : (s.release j.target).Agrees { movers := [j.source] } :=
        State.Agrees.releaseTarget (k := { movers := [j.source] }) h ht
      have stopped : ((s.release j.target).clearMoving j.source).Agrees { empty := [j.source] } :=
        State.Agrees.stopMoving (k := {}) released _ rfl rfl
      refine State.Agrees.deferredRelease (k := {}) (stopped.answered ..) ?_ List.not_mem_nil
      rw [frame_answered]
      unfold State.clearMoving
      rw [frame_setFrame_same]
    · exact h.resolveMove ht requester bad

theorem State.Agrees.completeCopy (h : s.Agrees {}) {rest : List CopyJob} (hj : s.jobs = j :: rest)
    {errors : List ErrorEvent} (hes : ∀ e ∈ errors, e.frame = j.source) : (s.completeCopy errors).Agrees {} := by
  have ht : (s.frame j.target).state = .target := h.state_of_mem (q := .target) (by simp [State.placed, hj])
  rw [completeCopy_cons s errors hj]
  have popped : State.Agrees { s with jobs := rest } j.slack := h.popJob hj
  have struck := popped.commonEffects .copy errors hes
  have dealt := State.Agrees.freeSourceResolved struck (by rw [(commonEffects_state ..).1]; exact ht)
  have resolved := dealt.1.resolveDealt dealt.2 (anyUncorrectable errors)
  rw [← resolveJob_eq] at resolved
  rcases startNextJob_cases (State.resolveJob _ j (anyUncorrectable errors)) with he | ⟨jobs, hcore, he⟩ <;> rw [he]
  · exact resolved
  · exact (resolved.calm (calm_jobs _ jobs hcore)).sameRecords (sameRecords_present ..)

/-! ### The completion of a check -/

theorem sameRecords_endWork (s : State) (f : FrameId) (work : CheckWork) (errors : List ErrorEvent) :
    s.SameRecords (s.endWork f work errors) := by
  unfold State.endWork
  split
  · constructor <;> rfl
  · refine .trans ?_ (calm_answerCheckOk ..).toSameRecords
    constructor <;> rfl
  · exact .refl s

theorem consequence_free (h : (s.frame f).state = .free) : s.consequence f = s.resolveFree f := by
  unfold State.consequence
  dsimp only
  rw [h]

theorem State.Agrees.completeCheck (h : s.Agrees {}) {work : CheckWork} (he : s.scrub.engine = .busy f work)
    {errors : List ErrorEvent} (hes : ∀ e ∈ errors, e.frame = f) : (s.completeCheck errors).Agrees {} := by
  rw [completeCheck_busy s errors he]
  have idle : State.Agrees { s with scrub := { s.scrub with engine := .idle } } {} :=
    h.congr (fun _ => rfl) (fun _ => rfl) (fun q => by cases q <;> rfl) rfl rfl
  have struck := idle.commonEffects work.finder errors hes
  refine State.Agrees.sameRecords ?_ ((sameRecords_endWork ..).trans (sameRecords_nextWork ..))
  set hit := State.commonEffects { s with scrub := { s.scrub with engine := .idle } } work.finder errors
  by_cases hfree : (hit.frame f).state = .free
  · rw [consequence_free hfree]
    exact State.Agrees.resolveFree (k := {}) struck hfree List.not_mem_nil
  · exact effects_agree (effects_consequence hit f) (State.Agrees.dropSuspect (k := {}) struck fun hx => absurd hx hfree)

end Sys2Proof.Machine
end

section
/-! THEOREMS. Every step keeps records, lists, entries, copy jobs and the access in progress in agreement, and every FREE
frame reading zero (R4, R12, R13, R17, R25, R27, R29, R47, R57, R75, R79, R94). -/

namespace Sys2Proof.Machine

variable {s t : State} {f : FrameId}

/-! ### The access in progress -/

theorem inHand_of_idle (h : s.arbiter.current = none) : s.InHand := by
  constructor <;> intros <;> simp_all

/-- What is in hand stays in hand. -/
theorem State.InHand.of_orderly (h : s.InHand) (ho : s.Orderly t) : t.InHand := by
  constructor
  · intro f hc
    rw [ho.current] at hc
    obtain ⟨rest, hq⟩ := ho.clearQueue
    rw [← hq, List.head?_append, h.clear f hc]
    rfl
  · intro a b es hc
    rw [ho.current] at hc
    obtain ⟨⟨j, hj, ha, hb⟩, hes⟩ := h.copy a b es hc
    refine ⟨?_, hes⟩
    obtain ⟨more, hjobs⟩ := ho.jobs
    have hhead : (t.jobs.map CopyJob.core).head? = some j.core := by
      rw [← hjobs, List.head?_append, List.head?_map, hj]
      rfl
    rw [List.head?_map, Option.map_eq_some_iff] at hhead
    obtain ⟨j', hj', hcore⟩ := hhead
    obtain ⟨_, hcore⟩ := Prod.mk.inj hcore
    obtain ⟨_, hcore⟩ := Prod.mk.inj hcore
    obtain ⟨hsource, htarget⟩ := Prod.mk.inj hcore
    exact ⟨j', hj', hsource.trans ha, htarget.trans hb⟩
  · intro a es hc
    rw [ho.current] at hc
    obtain ⟨⟨work, hw⟩, hes⟩ := h.check a es hc
    refine ⟨?_, hes⟩
    have hframe := ho.engine a (by rw [hw]; rfl)
    cases he : t.scrub.engine with
    | idle => rw [he] at hframe; cases hframe
    | busy g work' =>
      rw [he] at hframe
      cases hframe
      exact ⟨work', rfl⟩

/-! ### Grants -/

theorem placed_congr (hc : t.clearQueue = s.clearQueue) (hf : t.freeQueue = s.freeQueue) (hj : t.jobs = s.jobs)
    (hs : t.scrub = s.scrub) (q : Roll) : t.placed q = s.placed q := by
  cases q
  exacts [hc, hf, congrArg Scrubber.retired hs, congrArg (List.map CopyJob.target) hj]

theorem State.Agrees.memory {k : Slack} (h : s.Agrees k) (m : Memory) : State.Agrees { s with memory := m } k :=
  h.congr (fun _ => rfl) (fun _ => rfl) (placed_congr rfl rfl rfl rfl) rfl rfl

/-- A whole-frame grant begins the work its block has in hand. -/
theorem runAccess_inHand (s : State) (c : Client) (hc : ∀ i, c ≠ .dataPath i) (hidle : s.arbiter.current = none) :
    (s.runAccess c).InHand := by
  have hframes : ∀ f, ∀ e ∈ s.memory.errorsIn (frameWords f), e.frame = f := fun f e he =>
    (mem_frameWords ..).1 ((mem_errorsIn ..).1 he).1
  rcases runAccess_cases s c hc with ⟨he, _⟩ | ⟨f, rest, _, hq, he⟩ | ⟨j, rest, _, hq, he⟩ | ⟨f, work, _, hw, he⟩ <;> rw [he]
  · exact inHand_of_idle hidle
  · refine ⟨fun g hg => ?_, nofun, nofun⟩
    cases hg
    exact congrArg List.head? hq
  · refine ⟨nofun, fun a b es hg => ?_, nofun⟩
    cases hg
    exact ⟨⟨j, congrArg List.head? hq, rfl, rfl⟩, hframes j.source⟩
  · refine ⟨nofun, nofun, fun a es hg => ?_⟩
    cases hg
    exact ⟨⟨work, hw⟩, hframes f⟩

theorem grant_consistent (h : s.Consistent) (hidle : s.arbiter.current = none) (c : Client) : (s.grant c).Consistent := by
  obtain ⟨agrees, hand⟩ := consistent_iff.1 h
  have serving := agrees.sameRecords (sameRecords_serving s c)
  rw [grant_eq, consistent_iff]
  by_cases hp : ∀ i, c ≠ .dataPath i
  · exact ⟨serving.sameRecords (runAccess_sameRecords _ c hp), runAccess_inHand _ c hp hidle⟩
  · push Not at hp
    obtain ⟨i, rfl⟩ := hp
    obtain ⟨m, heff, _⟩ := effects_grantSegment (s.serving (.dataPath i)) i
    have idle : State.InHand { s.serving (.dataPath i) with memory := m } := inHand_of_idle hidle
    exact ⟨effects_agree heff (serving.memory m), idle.of_orderly (effects_orderly heff)⟩

theorem effects_consistent (he : s.Effects t) (h : s.Consistent) : t.Consistent := by
  obtain ⟨agrees, hand⟩ := consistent_iff.1 h
  exact consistent_iff.2 ⟨effects_agree he agrees, hand.of_orderly (effects_orderly he)⟩

theorem finish_consistent (h : s.Consistent) : s.finish.Consistent :=
  finish_keeps State.Consistent (fun _ c hc _ hx => grant_consistent hx hc c) (fun _ _ => effects_consistent) s h

/-! ### Completions -/

theorem endAccess_agrees {k : Slack} (h : s.Agrees k) : s.endAccess.Agrees k :=
  h.congr (fun _ => rfl) (fun _ => rfl) (placed_congr rfl rfl rfl rfl) rfl rfl

theorem completeClear_consistent (h : s.Consistent) (hc : s.arbiter.current = some (.clear f)) :
    (s.endAccess.completeClear f).Consistent := by
  obtain ⟨agrees, hand⟩ := consistent_iff.1 h
  have hmem : f ∈ s.clearQueue := List.mem_of_mem_head? (hand.clear f hc)
  refine consistent_iff.2 ⟨(endAccess_agrees agrees).completeClear hmem, inHand_of_idle ?_⟩
  rw [completeClear_eq, kickClearer_current, (calm_examinedClear ..).current, (sameWork_resolveCleared ..).current]
  rfl

/-- The completion of a copy, its job popped, is orderly. -/
theorem orderly_completeCopy (s : State) (errors : List ErrorEvent) {j : CopyJob} {rest : List CopyJob}
    (hj : s.jobs = j :: rest) : State.Orderly { s with jobs := rest } (s.completeCopy errors) := by
  rw [completeCopy_cons _ _ hj]
  exact ((orderly_commonEffects ..).trans (orderly_resolveJob ..)).trans (orderly_startNextJob _)

theorem completeCopy_consistent (h : s.Consistent) {a b : FrameId} {errors : List ErrorEvent}
    (hc : s.arbiter.current = some (.copy a b errors)) : (s.endAccess.completeCopy errors).Consistent := by
  obtain ⟨agrees, hand⟩ := consistent_iff.1 h
  obtain ⟨⟨j, hj, ha, _⟩, hes⟩ := hand.copy a b errors hc
  obtain ⟨rest, hjobs⟩ := List.head?_eq_some_iff.1 hj
  refine consistent_iff.2 ⟨(endAccess_agrees agrees).completeCopy hjobs (fun e he => (hes e he).trans ha.symm),
    inHand_of_idle ?_⟩
  rw [(orderly_completeCopy s.endAccess errors hjobs).current]
  rfl

theorem orderly_completeCheck (s : State) (errors : List ErrorEvent) {work : CheckWork}
    (he : s.scrub.engine = .busy f work) :
    State.Orderly { s with scrub := { s.scrub with engine := .idle } } (s.completeCheck errors) := by
  rw [completeCheck_busy _ _ he]
  exact (orderly_endedCheck ..).trans (orderly_takeWork _)

theorem completeCheck_consistent (h : s.Consistent) {errors : List ErrorEvent}
    (hc : s.arbiter.current = some (.check f errors)) : (s.endAccess.completeCheck errors).Consistent := by
  obtain ⟨agrees, hand⟩ := consistent_iff.1 h
  obtain ⟨⟨work, hw⟩, hes⟩ := hand.check f errors hc
  refine consistent_iff.2 ⟨(endAccess_agrees agrees).completeCheck hw hes, inHand_of_idle ?_⟩
  rw [(orderly_completeCheck s.endAccess errors hw).current]
  rfl

/-! ### Resets -/

/-- A part with no page present, no copy job, no FREE frame and no access in progress, whose frames are CLEARING or
RETIRED. -/
theorem fresh_consistent (hspace : ∀ sp, s.space sp = none) (hjobs : s.jobs = []) (hfree : s.freeQueue = [])
    (hidle : s.arbiter.current = none) (hclear : s.clearQueue.Nodup) (hretired : s.scrub.retired.Nodup)
    (hmem : ∀ f, f ∈ s.clearQueue ↔ (s.frame f).state = .clearing)
    (hmem' : ∀ f, f ∈ s.scrub.retired ↔ (s.frame f).state = .retired)
    (hframe : ∀ f, ((s.frame f).state = .clearing ∨ (s.frame f).state = .retired) ∧ (s.frame f).moving = false) :
    s.Consistent := by
  have hentry : ∀ p, s.entry p = none := fun p => by unfold State.entry; rw [hspace]; rfl
  have hnames : ∀ p, s.frameOf p = none := fun p => by unfold State.frameOf; rw [hentry]; rfl
  have hstate : ∀ st : FrameState, st ≠ .clearing → st ≠ .retired → ∀ f, (s.frame f).state ≠ st := by
    rintro st h1 h2 f rfl
    exact (hframe f).1.elim h1 h2
  have hrefs : ∀ f, (s.frame f).state.refs = [] := fun f => by
    rcases (hframe f).1 with hf | hf <;> rw [hf] <;> rfl
  refine consistent_iff.2 ⟨⟨⟨?_, List.nodup_nil, ?_⟩, ⟨fun p f => ?_, fun f => ?_⟩, ⟨fun f => ?_, ?_,
    fun f => ?_, fun f => ?_, fun f => ?_⟩, ⟨fun p e => ?_, ?_⟩⟩, inHand_of_idle hidle⟩
  · rintro (_ | _ | _ | _) <;> simp [State.placed, hclear, hretired, hfree, hjobs]
  · rintro (_ | _ | _ | _) f <;> rw [place_eq_some] <;> simp only [List.not_mem_nil, not_false_eq_true, and_true]
    · exact hmem f
    · simpa [State.placed, hfree, Roll.state] using hstate .free nofun nofun f
    · exact hmem' f
    · simpa [State.placed, hjobs, Roll.state] using hstate .target nofun nofun f
  · rw [hrefs, hnames]; simp
  · rw [hrefs]; exact List.nodup_nil
  · rw [(hframe f).2]; simp [hjobs]
  · simp [hjobs]
  · rw [(hframe f).2]; nofun
  · exact fun hx => absurd hx (hstate (.held []) nofun nofun f)
  · exact fun hx => absurd hx (hstate .free nofun nofun f)
  · rw [hentry]; nofun
  · simp [hjobs]

theorem State.Consistent.kickClearer (h : s.Consistent) (hidle : s.arbiter.current = none) : s.kickClearer.Consistent := by
  obtain ⟨agrees, _⟩ := consistent_iff.1 h
  exact consistent_iff.2 ⟨agrees.kickClearer, inHand_of_idle (by rw [kickClearer_current, hidle])⟩

theorem poweredOn_consistent (s : State) (pins0 pins1 : LinkPins) : (s.poweredOn pins0 pins1).Consistent := by
  refine fresh_consistent (space_poweredOn s pins0 pins1) ?_ ?_ ?_ ?_ ?_ (fun f => ?_) (fun f => ?_) (fun f => ?_)
  · rfl
  · rfl
  · rfl
  · unfold State.poweredOn; dsimp only
    exact List.nodup_finRange 4096
  · exact List.nodup_nil
  · rw [frame_poweredOn]
    unfold State.poweredOn; dsimp only
    exact iff_of_true (List.mem_finRange f) rfl
  · rw [frame_poweredOn]
    exact iff_of_false List.not_mem_nil nofun
  · rw [frame_poweredOn]
    exact ⟨Or.inl rfl, rfl⟩

theorem afterResetN_cases (r : FrameRecord) : (r.state = .retired ∧ r.afterResetN.state = .retired ∨
    r.state ≠ .retired ∧ r.afterResetN.state = .clearing) ∧ r.afterResetN.moving = false := by
  unfold FrameRecord.afterResetN
  split
  · next h => exact ⟨Or.inl ⟨h, h⟩, rfl⟩
  · next h => exact ⟨Or.inr ⟨h, rfl⟩, rfl⟩

theorem resetHeld_consistent (h : s.Consistent) : s.resetHeld.Consistent := by
  refine fresh_consistent (space_resetHeld s) ?_ ?_ ?_ ?_ ?_ (fun f => ?_) (fun f => ?_) (fun f => ?_)
  · rfl
  · rfl
  · rfl
  · unfold State.resetHeld; dsimp only
    exact (List.nodup_finRange 4096).filter _
  · exact h.retiredNodup
  · rw [frame_resetHeld]
    have hmem : f ∈ s.resetHeld.clearQueue ↔ (s.frame f).state ≠ .retired := by
      simp [State.resetHeld]
    rw [hmem]
    rcases (afterResetN_cases (s.frame f)).1 with ⟨h1, h2⟩ | ⟨h1, h2⟩
    · exact iff_of_false (fun hx => hx h1) (by rw [h2]; nofun)
    · exact iff_of_true h1 h2
  · rw [frame_resetHeld]
    refine (h.retired f).trans ?_
    rcases (afterResetN_cases (s.frame f)).1 with ⟨h1, h2⟩ | ⟨h1, h2⟩
    · exact iff_of_true h1 h2
    · exact iff_of_false h1 (by rw [h2]; nofun)
  · rw [frame_resetHeld]
    obtain ⟨hcases, hm⟩ := afterResetN_cases (s.frame f)
    exact ⟨hcases.elim (fun hx => Or.inr hx.2) fun hx => Or.inl hx.2, hm⟩

/-- A message that awaits intake changes nothing the agreement reads. -/
theorem awaiting_consistent (h : s.Consistent) (i : LinkId) (m : Message) :
    (s.onLink i fun l => { l with awaiting := l.awaiting ++ [m] }).Consistent := by
  obtain ⟨agrees, hand⟩ := consistent_iff.1 h
  refine consistent_iff.2 ⟨agrees.congr (by simp) (by simp) (placed_congr ?_ ?_ ?_ ?_) (by simp) (by simp), ⟨?_, ?_, ?_⟩⟩
  · simp
  · simp
  · simp
  · simp
  · simpa using hand.clear
  · simpa using hand.copy
  · simpa using hand.check

theorem event_consistent (he : s.Event t) (h : s.Consistent) : t.Consistent := by
  obtain ⟨agrees, hand⟩ := consistent_iff.1 h
  cases he with
  | still hs => exact consistent_iff.2 ⟨agrees.calm hs.toCalm, hand.of_orderly hs.toCalm.orderly⟩
  | struck f w b => exact consistent_iff.2 ⟨agrees.memory _, ⟨hand.clear, hand.copy, hand.check⟩⟩
  | worked he => exact finish_consistent (effects_consistent he h)
  | awaited i m hc => exact finish_consistent (awaiting_consistent (effects_consistent hc.effects h) i m)
  | poweredOn pins0 pins1 => exact finish_consistent ((poweredOn_consistent s pins0 pins1).kickClearer rfl)
  | reset => exact finish_consistent ((resetHeld_consistent h).kickClearer rfl)
  | cleared f hc => exact finish_consistent (completeClear_consistent h hc)
  | copied a b es hc => exact finish_consistent (completeCopy_consistent h hc)
  | checked f es hc => exact finish_consistent (completeCheck_consistent h hc)

/-! ### FREE frames read zero -/

/-- FREE frames read zero in a consistent part whose segments are of at most 64 bytes. -/
structure State.Zeroed (s : State) : Prop where
  consistent : s.Consistent
  zero : s.FreeReadsZero
  small : ∀ i g, (s.link i).segment = some g → g.count ≤ 64

theorem zero_of_orderly (h : s.FreeReadsZero) (ho : s.Orderly t) : t.FreeReadsZero :=
  ⟨fun f o hf hlt => by rw [ho.memory]; exact h.free f o (ho.free f hf) hlt,
    fun f o hc hlt => by rw [ho.memory]; exact h.clearing f o (ho.current ▸ hc) hlt⟩

theorem small_of_quiet (h : ∀ i g, (s.link i).segment = some g → g.count ≤ 64) (hq : ∀ i, (s.link i).Quiet (t.link i)) :
    ∀ i g, (t.link i).segment = some g → g.count ≤ 64 :=
  fun i g hg => ((hq i).segment g hg).elim (h i g) id

theorem State.Zeroed.effects (h : s.Zeroed) (he : s.Effects t) : t.Zeroed :=
  ⟨effects_consistent he h.consistent, zero_of_orderly h.zero (effects_orderly he),
    small_of_quiet h.small (effects_orderly he).links⟩

/-- The whole-frame accesses write only the frame cleared and a TARGET frame (R7–R9). -/
theorem runAccess_zero (h : s.Consistent) (hz : s.FreeReadsZero) (c : Client) (hc : ∀ i, c ≠ .dataPath i) :
    (s.runAccess c).FreeReadsZero := by
  rcases runAccess_cases s c hc with ⟨he, _⟩ | ⟨f, rest, _, hq, he⟩ | ⟨j, rest, _, hq, he⟩ | ⟨f, work, _, hw, he⟩ <;> rw [he]
  · exact hz
  · refine ⟨fun g o hg hlt => ?_, fun g o hg hlt => ?_⟩
    · refine (readByte_clearFrame s.memory f g o hlt).trans ?_
      split
      · rfl
      · exact hz.free g o hg hlt
    · cases hg
      exact (readByte_clearFrame s.memory f f o hlt).trans (if_pos rfl)
  · refine ⟨fun g o hg hlt => ?_, nofun⟩
    have hne : g ≠ j.target := by
      rintro rfl
      have ht := (h.target j.target).1 (by simp [hq])
      have hfree : (s.frame j.target).state = .free := hg
      rw [ht] at hfree
      cases hfree
    refine (readByte_frameCopy s.memory j.source g o j.target hlt).trans ?_
    rw [if_neg fun hx => hne hx.1]
    exact hz.free g o hg hlt
  · exact ⟨fun g o hg hlt => (readByte_frameCheck ..).trans (hz.free g o hg hlt), nofun⟩

/-- A segment's grant writes only frames that a page names, which are HELD (R159). -/
theorem grant_zero (h : s.Zeroed) (hidle : s.arbiter.current = none) (c : Client) : (s.grant c).FreeReadsZero := by
  have serving : (s.serving c).FreeReadsZero := ⟨h.zero.free, h.zero.clearing⟩
  rw [grant_eq]
  by_cases hp : ∀ i, c ≠ .dataPath i
  · exact runAccess_zero (consistent_iff.2 ⟨(consistent_iff.1 h.consistent).1.sameRecords (sameRecords_serving s c),
      inHand_of_idle hidle⟩) serving c hp
  · push Not at hp
    obtain ⟨i, rfl⟩ := hp
    obtain ⟨m, heff, hbytes⟩ := effects_grantSegment (s.serving (.dataPath i)) i
    have kept := hbytes fun g hg => h.small i g (by rwa [link_serving] at hg)
    have accessed : State.FreeReadsZero { s.serving (.dataPath i) with memory := m } := by
      refine ⟨fun f o hf hlt => ?_, fun f o hc => ?_⟩
      · refine (kept f o hlt ?_).trans (h.zero.free f o hf hlt)
        rintro ⟨p, e, hp, he⟩
        have hfree : (s.frame f).state = .free := hf
        have hheld := (consistent_iff.1 h.consistent).1.held (show s.entry p = some e from hp)
        rw [he, hfree] at hheld
        cases hheld
      · have hnone : some (Access.clear f) = none := hc.symm.trans hidle
        cases hnone
    exact zero_of_orderly accessed (effects_orderly heff)

theorem State.Zeroed.finish (h : s.Zeroed) : s.finish.Zeroed :=
  finish_keeps State.Zeroed (fun s c hc _ hx => ⟨grant_consistent hx.consistent hc c, grant_zero hx hc c,
    small_of_quiet hx.small (grant_links s c)⟩) (fun _ _ he hx => hx.effects he) s h

/-- The completion of a clear changes no stored byte and no frame but the one cleared. -/
theorem completeClear_keeps (s : State) (f : FrameId) : (s.completeClear f).memory = s.memory ∧
    (∀ g, g ≠ f → (s.completeClear f).frame g = s.frame g) ∧ ∀ i, (s.link i).Quiet ((s.completeClear f).link i) := by
  have resolved : ∀ x : State, (x.resolveCleared f).memory = x.memory ∧
      (∀ g, g ≠ f → (x.resolveCleared f).frame g = x.frame g) ∧ ∀ i, (x.link i).Quiet ((x.resolveCleared f).link i) := by
    intro x
    have retired : ∀ d, (x.retireFrame f d).memory = x.memory ∧ (∀ g, g ≠ f → (x.retireFrame f d).frame g = x.frame g) ∧
        ∀ i, (x.link i).Quiet ((x.retireFrame f d).link i) := fun d =>
      ⟨(orderly_retireFrame x f d).memory, fun g hg => by rw [frame_retireFrame, if_neg hg],
          (orderly_retireFrame x f d).links⟩
    unfold State.resolveCleared
    dsimp only
    split_ifs
    · exact retired false
    · exact retired true
    · have calm := calm_examineRise (State.setFrame { x with freeQueue := x.freeQueue ++ [f] } f
        { x.frame f with state := .free, retirePending := false })
      refine ⟨calm.memory, fun g hg => (calm.frame g).trans (frame_setFrame_other _ _ _ _ hg), fun i => ?_⟩
      refine .trans (l' := State.link (State.setFrame { x with freeQueue := x.freeQueue ++ [f] } f _) i) ?_ (calm.links i)
      rw [link_setFrame]
      cases i <;> exact .refl _
  have calm := calm_examinedClear s f
  obtain ⟨hmem, hframe, hlinks⟩ := resolved { s with clearQueue := s.clearQueue.erase f }
  rw [completeClear_eq]
  refine ⟨?_, fun g hg => ?_, fun i => ?_⟩
  · rw [kickClearer_memory, calm.memory, hmem]
  · rw [frame_kickClearer, calm.frame, hframe g hg]
    rfl
  · rw [link_kickClearer]
    refine .trans ?_ ((hlinks i).trans (calm.links i))
    cases i <;> exact .refl _

theorem completeClear_zeroed (h : s.Zeroed) (hc : s.arbiter.current = some (.clear f)) :
    (s.endAccess.completeClear f).Zeroed := by
  obtain ⟨hmem, hframe, hlinks⟩ := completeClear_keeps s.endAccess f
  have consistent := completeClear_consistent h.consistent hc
  refine ⟨consistent, ⟨fun g o hg hlt => ?_, fun g o hg => ?_⟩, small_of_quiet h.small fun i => ?_⟩
  · rw [hmem]
    by_cases hgf : g = f
    · exact hgf ▸ h.zero.clearing f o hc hlt
    · rw [hframe g hgf] at hg
      exact h.zero.free g o hg hlt
  · rw [completeClear_eq, kickClearer_current, (calm_examinedClear ..).current, (sameWork_resolveCleared ..).current] at hg
    cases hg
  · refine .trans ?_ (hlinks i)
    cases i <;> exact .refl _

theorem completeCopy_zeroed (h : s.Zeroed) {a b : FrameId} {errors : List ErrorEvent}
    (hc : s.arbiter.current = some (.copy a b errors)) : (s.endAccess.completeCopy errors).Zeroed := by
  obtain ⟨⟨j, hj, _, _⟩, _⟩ := (consistent_iff.1 h.consistent).2.copy a b errors hc
  obtain ⟨rest, hjobs⟩ := List.head?_eq_some_iff.1 hj
  have order := orderly_completeCopy s.endAccess errors hjobs
  have popped : State.FreeReadsZero { s.endAccess with jobs := rest } := ⟨h.zero.free, nofun⟩
  refine ⟨completeCopy_consistent h.consistent hc, zero_of_orderly popped order, small_of_quiet h.small fun i => ?_⟩
  refine .trans ?_ (order.links i)
  cases i <;> exact .refl _

theorem completeCheck_zeroed (h : s.Zeroed) {errors : List ErrorEvent} (hc : s.arbiter.current = some (.check f errors)) :
    (s.endAccess.completeCheck errors).Zeroed := by
  obtain ⟨⟨work, hw⟩, _⟩ := (consistent_iff.1 h.consistent).2.check f errors hc
  have order := orderly_completeCheck s.endAccess errors hw
  have idle : State.FreeReadsZero { s.endAccess with scrub := { s.endAccess.scrub with engine := .idle } } :=
    ⟨h.zero.free, nofun⟩
  refine ⟨completeCheck_consistent h.consistent hc, zero_of_orderly idle order, small_of_quiet h.small fun i => ?_⟩
  refine .trans ?_ (order.links i)
  cases i <;> exact .refl _

/-- A part with no FREE frame, no access in progress and no segment. -/
theorem fresh_zeroed (h : s.Consistent) (hidle : s.arbiter.current = none) (hfree : ∀ f, (s.frame f).state ≠ .free)
    (hseg : ∀ i, (s.link i).segment = none) : s.kickClearer.Zeroed := by
  refine ⟨h.kickClearer hidle, ⟨fun f o hf => ?_, fun f o hc => ?_⟩, fun i g hg => ?_⟩
  · rw [frame_kickClearer] at hf
    exact absurd hf (hfree f)
  · rw [kickClearer_current, hidle] at hc
    cases hc
  · rw [link_kickClearer, hseg] at hg
    cases hg

theorem event_zeroed (he : s.Event t) (h : s.Zeroed) : t.Zeroed := by
  cases he with
  | still hs => exact h.effects hs.toCalm.effects
  | struck f w b =>
    have kept : ∀ g o, (s.memory.strike f w b).readByte g o = s.memory.readByte g o := fun g o => readByte_setDamage ..
    exact ⟨event_consistent (.struck f w b) h.consistent, ⟨fun g o hg hlt => (kept g o).trans (h.zero.free g o hg hlt),
      fun g o hc hlt => (kept g o).trans (h.zero.clearing g o hc hlt)⟩,
        fun i g hg => h.small i g (by rwa [link_memory] at hg)⟩
  | worked he => exact (h.effects he).finish
  | awaited i m hc =>
    have woken := h.effects hc.effects
    refine State.Zeroed.finish ⟨awaiting_consistent woken.consistent i m, ⟨by simpa using woken.zero.free,
      by simpa using woken.zero.clearing⟩, fun j g hg => woken.small j g ?_⟩
    rw [link_onLink] at hg
    split at hg <;> exact hg
  | poweredOn pins0 pins1 =>
    refine (fresh_zeroed (poweredOn_consistent s pins0 pins1) rfl (fun f => ?_) fun i => ?_).finish
    · rw [frame_poweredOn]; nofun
    · cases i <;> rfl
  | reset =>
    refine (fresh_zeroed (resetHeld_consistent h.consistent) rfl (fun f => ?_) fun i => ?_).finish
    · rw [frame_resetHeld]
      rcases (afterResetN_cases (s.frame f)).1 with ⟨_, hx⟩ | ⟨_, hx⟩ <;> rw [hx] <;> nofun
    · cases i <;> rfl
  | cleared f hc => exact (completeClear_zeroed h hc).finish
  | copied a b es hc => exact (completeCopy_zeroed h hc).finish
  | checked f es hc => exact (completeCheck_zeroed h hc).finish

/-- Settles O7: agreement up to the slack of the operation in hand is kept by each operation,
and no operation leaves slack at its end; only frames that a page names, a frame being cleared and a TARGET frame are written. -/
theorem stepKeepsConsistent : Obligations.StepKeepsConsistent := by
  refine ⟨fun s t hs h => step_keeps State.Consistent (fun s t hst hx => event_consistent (.still hst) hx)
    (fun _ _ => event_consistent) s t hs h, fun s t hl hc hz h => ?_⟩
  have small : ∀ i g, (s.link i).segment = some g → g.count ≤ 64 := fun i g hg => by
    obtain ⟨_, _, _, _, _, _, hle, _⟩ := (hl i).segment g hg
    exact hle
  exact (step_keeps State.Zeroed (fun s t hst hx => event_zeroed (.still hst) hx) (fun _ _ => event_zeroed) s t
    ⟨hc, hz, small⟩ h).zero

end Sys2Proof.Machine
end

section
/-! THEOREMS. Resets, the state at reset, and the number of frames in each state (R11, R12, R24, R29, R44, R69, R93, R103,
R104, R114, R126, R148, R177, R179). -/

namespace Sys2Proof.Machine

variable {s : State}

/-! ### The number of frames in each state -/

/-- A frame is in exactly one of the five states (R12). -/
theorem countP_states (state : FrameId → FrameState) (l : List FrameId) :
    (l.countP fun f => state f = .clearing) + (l.countP fun f => state f = .free) + (l.countP fun f => (state f).isHeld) +
      (l.countP fun f => state f = .target) + (l.countP fun f => state f = .retired) = l.length := by
  induction l with
  | nil => rfl
  | cons f rest ih =>
    have one : (if state f = .clearing then 1 else 0) + (if state f = .free then 1 else 0) +
        (if (state f).isHeld = true then 1 else 0) + (if state f = .target then 1 else 0) +
        (if state f = .retired then 1 else 0) = 1 := by
      cases state f <;> simp [FrameState.isHeld]
    simp only [List.countP_cons, List.length_cons, decide_eq_true_eq]
    omega

/-- A list without repetition that holds the frames of a state is as long as they are many. -/
theorem length_eq_countP {l : List FrameId} (hn : l.Nodup) {st : FrameState} (hm : ∀ f, f ∈ l ↔ (s.frame f).state = st) :
    l.length = (List.finRange 4096).countP fun f => (s.frame f).state = st := by
  rw [List.countP_eq_length_filter]
  refine List.Perm.length_eq ((List.perm_ext_iff_of_nodup hn ((List.nodup_finRange 4096).filter _)).2 fun f => ?_)
  rw [hm, List.mem_filter, decide_eq_true_eq]
  exact (and_iff_right (List.mem_finRange f)).symm

/-- Settles O9: the four lists hold the frames of their states, and each frame is in one of the five. -/
theorem frameCountsSum : Obligations.FrameCountsSum := by
  intro s h
  have jobs : s.jobs.length = (s.jobs.map CopyJob.target).length := (List.length_map _).symm
  rw [jobs, length_eq_countP h.clearNodup h.clearing, length_eq_countP h.freeNodup h.free,
    length_eq_countP h.targetNodup h.target, length_eq_countP h.retiredNodup h.retired,
    countP_states fun f => (s.frame f).state]
  exact List.length_finRange

/-! ### POWER_ON -/

theorem clearQueue_poweredOn (s : State) (pins0 pins1 : LinkPins) :
    (s.poweredOn pins0 pins1).clearQueue = 0 :: (List.finRange 4095).map Fin.succ := by
  unfold State.poweredOn
  dsimp only
  exact List.finRange_succ (n := 4095)

/-- The clear of frame 0 in a store whose data is undefined (R8). -/
theorem clearFrame_undefined (u : Vector (Option Nat) 4096) :
    Memory.clearFrame ⟨[], [], u⟩ 0 = ⟨[], [], u.set 0 none⟩ := rfl

/-- The Clearer begins on frame 0 (R26). -/
theorem poweredOn_finish (s : State) (pins0 pins1 : LinkPins) : (s.poweredOn pins0 pins1).kickClearer.finish =
    { s.poweredOn pins0 pins1 with
      memory := (s.poweredOn pins0 pins1).memory.clearFrame 0, arbiter := ⟨some (.clear 0), [], .clearer⟩ } := by
  refine kick_finish _ 0 _ (clearQueue_poweredOn s pins0 pins1) ?_ ?_ (fun i => ?_) fun i => ?_
  · rfl
  · rfl
  · cases i <;> exact initial_settle ..
  · cases i <;> exact initial_canTake ..

/-- Settles O10: every field at its power-on value, and the first clear granted. -/
theorem powerOnSetsPart : Obligations.PowerOnSetsPart := by
  intro s p0 p1
  change execPowerOn p0 p1 s = _
  rw [execPowerOn_eq, poweredOn_finish]
  unfold State.poweredOn
  dsimp only
  rw [initial_eq, initial_eq, clearFrame_undefined]
  unfold FrameRecord.initial Scrubber.initial
  with_reducible rfl

/-! ### The state at reset -/

/-- The state at reset is the part after power-on with both straps low and both RXD high (log 3). -/
theorem reset_eq_poweredOn : State.reset =
    (State.poweredOn { State.reset with freeIndex := 0 } ⟨0, false⟩ ⟨0, false⟩).kickClearer.finish := by
  rw [poweredOn_finish]
  unfold State.poweredOn
  dsimp only
  rw [clearFrame_undefined]
  unfold State.reset
  with_reducible rfl

/-- A link right after a reset is DOWN with nothing in hand (R126, R179). -/
theorem initial_lawful (rate : BitVec 2) (rxdLow : Bool) : (Link.initial rate rxdLow).Lawful := by
  have slots : ∀ k t, (Link.initial rate rxdLow).slots.get k ≠ .active t := fun k t => by
    simp [Link.initial, Vector.get_eq_getElem]
  exact {
    deferredBound := Nat.zero_le _
    deferredDistinct := List.nodup_nil
    deferredTagged := nofun
    downEmpty := fun _ => ⟨rfl, rfl, slots⟩
    noticesDistinct := List.nodup_nil
    placesBound := Nat.zero_le _
    position := fun k t h => absurd h (slots k t)
    inData := fun k t h => absurd h (slots k t)
    inFinal := fun k t h => absurd h (slots k t)
    lastSegment := fun k t _ h => absurd h (slots k t)
    segment := nofun }

/-- Settles O3: the state at reset is one that POWER_ON makes, and POWER_ON establishes every invariant. -/
theorem resetMeetsInvariants : Obligations.ResetMeetsInvariants := by
  set before : State := { State.reset with freeIndex := 0 }
  have consistent := poweredOn_consistent before ⟨0, false⟩ ⟨0, false⟩
  refine ⟨?_, fun i => ?_, wf_empty _, ?_, ?_, ?_⟩
  · rw [reset_eq_poweredOn]
    refine finish_stable (kickClearer_working ?_ ?_ ?_ ?_)
    exacts [rfl, rfl, rfl, nofun]
  · cases i <;> exact initial_lawful 0 false
  · rw [reset_eq_poweredOn]
    exact finish_consistent (consistent.kickClearer rfl)
  · rw [reset_eq_poweredOn]
    refine (State.Zeroed.finish (fresh_zeroed consistent rfl (fun f => ?_) fun i => ?_)).zero
    · rw [frame_poweredOn]; nofun
    · cases i <;> rfl
  · rw [reset_eq_poweredOn]
    exact finish_bounded (poweredOn_bounded before ⟨0, false⟩ ⟨0, false⟩).kickClearer

/-! ### RESET_N -/

/-- The Clearer begins on the first frame that is not RETIRED, if there is one (R26). -/
theorem resetHeld_finish (s : State) : s.resetHeld.kickClearer.finish =
    match s.resetHeld.clearQueue with
    | [] => s.resetHeld
    | f :: _ => { s.resetHeld with
        memory := s.resetHeld.memory.clearFrame f, arbiter := ⟨some (.clear f), [], .clearer⟩ } := by
  have settled : ∀ i, (s.resetHeld.link i).settle = s.resetHeld.link i := fun i => by
    cases i <;> exact initial_settle ..
  have taken : ∀ i, (s.resetHeld.link i).canTake = false := fun i => by
    cases i <;> exact initial_canTake ..
  cases hq : s.resetHeld.clearQueue with
  | nil =>
    have hkick : s.resetHeld.kickClearer = s.resetHeld := if_pos (Or.inl hq)
    rw [hkick]
    exact finish_of_settled _ (Or.inr rfl) settled taken
  | cons f rest => exact kick_finish _ f rest hq rfl rfl settled taken

/-- The bytes and words of a kept frame stay (R11). -/
theorem forget_kept (m : Memory) (kept : Vector Bool 4096) (index : Nat) {f : FrameId} (hk : kept.get f = true) :
    (∀ o, o < 512 → (m.forget kept index).readByte f o = m.readByte f o) ∧
      ∀ w, (m.forget kept index).damageOf f w = m.damageOf f w := by
  have hundefined : (m.forget kept index).undefinedSince.get f = m.undefinedSince.get f := by
    rw [undefinedSince_forget, hk]; rfl
  refine ⟨fun o ho => ?_, fun w => ?_⟩
  · have hkeep : Memory.forget.keeps kept (byteAddress f o / 512) = true := by
      rw [keeps_iff f kept _ (by unfold byteAddress; omega), hk]
    unfold Memory.readByte
    rw [hundefined]
    have hget : sparseGet (m.forget kept index).cells (byteAddress f o) = sparseGet m.cells (byteAddress f o) := by
      refine (sparseGet_filter m.cells (byteAddress f o) fun k => Memory.forget.keeps kept (k / 512)).trans ?_
      rw [if_pos hkeep]
    rw [hget]
  · have hkeep : Memory.forget.keeps kept (wordNumber f w / 64) = true := by
      rw [keeps_iff f kept _ (by unfold wordNumber; omega), hk]
    unfold Memory.damageOf
    rw [hundefined]
    have hget : sparseGet (m.forget kept index).damage (wordNumber f w) = sparseGet m.damage (wordNumber f w) := by
      refine (sparseGet_filter m.damage (wordNumber f w) fun k => Memory.forget.keeps kept (k / 64)).trans ?_
      rw [if_pos hkeep]
    rw [hget]

/-- A RETIRED frame's bytes and words stay at RESET_N (R103). -/
theorem resetHeld_kept (s : State) {f : FrameId} (hf : (s.frame f).state = .retired) :
    (∀ o, o < 512 → s.resetHeld.memory.readByte f o = s.memory.readByte f o) ∧
      ∀ w, s.resetHeld.memory.damageOf f w = s.memory.damageOf f w := by
  refine forget_kept s.memory _ _ ?_
  simpa [State.frame, Vector.get_eq_getElem] using hf

/-- Settles O11: RESET_N's own state, and the first clear if any frame is not RETIRED. -/
theorem resetNKeepsRetired : Obligations.ResetNKeepsRetired := by
  intro s
  refine ⟨s.resetHeld.kickClearer.finish, execResetN_eq s, ?_⟩
  have hframe : ∀ f, s.resetHeld.frame f = if (s.frame f).state = .retired then
      { s.frame f with retirePending := false, moving := false } else .initial := frame_resetHeld s
  have hlink : ∀ i, s.resetHeld.link i = resetLink (s.link i).rate (resetReceiver false) := fun i => by
    rw [← initial_eq]
    cases i <;> rfl
  have hspace := space_resetHeld s
  have hkept := fun f hf => resetHeld_kept s (f := f) hf
  have hqueue : s.resetHeld.clearQueue = (List.finRange 4096).filter fun f => (s.frame f).state ≠ .retired := by
    simp only [State.resetHeld]
  rw [resetHeld_finish]
  cases hq : s.resetHeld.clearQueue with
  | nil =>
    dsimp only
    rw [hq]
    exact ⟨rfl, hframe, fun f o hf ho => (hkept f hf).1 o ho, fun f w hf => (hkept f hf).2 w, hq ▸ hqueue, rfl, ⟨rfl, rfl⟩,
      rfl, rfl, rfl, rfl, hspace, rfl, rfl, hlink⟩
  | cons f rest =>
    dsimp only
    have hne : ∀ g, (s.frame g).state = .retired → g ≠ f := by
      rintro g hg rfl
      have hmem : g ∈ s.resetHeld.clearQueue := hq ▸ List.mem_cons_self
      rw [hqueue, List.mem_filter] at hmem
      simp [hg] at hmem
    rw [hq]
    refine ⟨rfl, hframe, fun g o hg ho => ?_, fun g w hg => ?_, hq ▸ hqueue, rfl, ⟨rfl, rfl⟩, rfl, rfl, rfl, rfl, hspace,
      rfl, rfl, fun i => ?_⟩
    · rw [readByte_clearFrame _ _ _ _ ho, if_neg (hne g hg)]
      exact (hkept g hg).1 o ho
    · rw [damageOf_clearFrame, if_neg (hne g hg)]
      exact (hkept g hg).2 w
    · rw [← hlink]
      cases i <;> rfl

end Sys2Proof.Machine
end

section
/-! THEOREMS. The common effects of a storage error (R19, R20), and the arbiter's ring (R10, R11). -/

namespace Sys2Proof.Machine

/-! ### Storage errors -/

/-- The set of spaces has the bit of each space that a page of the list lies in (R20, R190). -/
theorem getLsbD_spacesOf (refs : List BackRef) (n : Nat) :
    (spacesOf refs).getLsbD n = true ↔ ∃ p ∈ refs, p.1.val = n := by
  have general : ∀ acc : BitVec 16, (refs.foldl (fun acc p => acc ||| spaceSet p.1) acc).getLsbD n = true ↔
      acc.getLsbD n = true ∨ ∃ p ∈ refs, p.1.val = n := by
    induction refs with
    | nil => simp
    | cons p rest ih =>
      intro acc
      have hbit : (spaceSet p.1).getLsbD n = true ↔ p.1.val = n := by
        have := p.1.isLt
        simp only [spaceSet, BitVec.getLsbD_twoPow, Bool.and_eq_true, decide_eq_true_eq]
        omega
      rw [List.foldl_cons, ih, BitVec.getLsbD_or, Bool.or_eq_true, hbit]
      simp only [List.mem_cons, exists_eq_or_imp, or_assoc]
  exact (general 0).trans (by simp)

theorem spacesOf_eq {refs : List BackRef} {spaces : BitVec 16}
    (h : ∀ sp : SpaceId, spaces.getLsbD sp.val = true ↔ ∃ p ∈ refs, p.1 = sp) : spacesOf refs = spaces := by
  refine BitVec.eq_of_getLsbD_eq fun n hn => Bool.eq_iff_iff.2 ?_
  rw [getLsbD_spacesOf]
  refine Iff.trans ?_ (h ⟨n, hn⟩).symm
  simp only [Fin.ext_iff]

/-- The record after a CORRECTED outcome, written out (R19). -/
theorem afterCorrected_eq (r : FrameRecord) (word : WordId) (bit : BitId) (finder : Finder) (threshold discretionary : Nat) :
    r.afterCorrected word bit finder threshold discretionary = { r with
      tally := if r.tally < 15 then r.tally + 1 else 15
      lastError := some { word := word, kind := .corrected bit, finder := finder }
      retirePending := if threshold ≤ (if r.tally < 15 then r.tally + 1 else 15) ∧ r.poisoned = false ∧
        discretionary < 256 then true else r.retirePending } := by
  have htally : min (r.tally + 1) 15 = if r.tally < 15 then r.tally + 1 else 15 := by split <;> omega
  have hpending : ∀ (c : Prop) [Decidable c], (r.retirePending || decide c) = if c then true else r.retirePending := by
    intro c _
    split <;> simp [*]
  unfold FrameRecord.afterCorrected
  dsimp only
  rw [hpending, htally]
  rfl

/-- Settles O55: the record's two updates, and the spaces of the list as the notice names them. -/
theorem errorEffects : Obligations.ErrorEffects := by
  intro s finder f w
  refine ⟨fun bit => ?_, fun hp => ?_, fun spaces hs hp => ?_⟩
  · exact congrArg (s.setFrame f) (afterCorrected_eq ..)
  · have hrecord : (s.frame f).afterUncorrectable w finder =
        { s.frame f with lastError := some { word := w, kind := .uncorrectable, finder := finder } } := by
      simp [FrameRecord.afterUncorrectable, hp]
    unfold State.commonEffect
    dsimp only
    rw [if_pos hp, hrecord]
  · have hrecord : (s.frame f).afterUncorrectable w finder = { s.frame f with
        lastError := some { word := w, kind := .uncorrectable, finder := finder }, poisoned := true,
        retirePending := false } := by
      unfold FrameRecord.afterUncorrectable
      rw [hp, Bool.false_and]
    unfold State.commonEffect
    dsimp only
    rw [if_neg (by simp [hp]), hrecord, spacesOf_eq hs]

/-! ### The arbiter -/

/-- The ring from the client after one is the ring of the five clients turned (R10). -/
theorem ring_getElem? {n d : Nat} {l : Client} (hn : n < 5) (hd : d < 5)
    (hl : [Client.dataPath .link0, .dataPath .link1, .copyEngine, .clearer, .scrubber][n]? = some l) :
    l.ring[d]? = [Client.dataPath .link0, .dataPath .link1, .copyEngine, .clearer, .scrubber][(n + (d + 1)) % 5]? := by
  interval_cases n <;> cases hl <;> interval_cases d <;> rfl

/-- The first client of the ring that waits is next (R10). -/
theorem next_of_ring {a : Arbiter} {c : Client} {d : Nat} (hc : a.lastServed.ring[d]? = some c) (hw : c ∈ a.waiting)
    (hfirst : ∀ e c', e < d → a.lastServed.ring[e]? = some c' → c' ∉ a.waiting) : a.next = some c := by
  obtain ⟨hlt, hget⟩ := List.getElem?_eq_some_iff.1 hc
  refine List.find?_eq_some_iff_getElem.2 ⟨decide_eq_true hw, d, hlt, hget, fun e he => ?_⟩
  rw [Bool.not_eq_true', decide_eq_false_iff_not]
  exact hfirst e _ he (List.getElem?_eq_getElem (he.trans hlt))

/-- A grant that occupies the store ends the event's grants. -/
theorem endEvent_of_grant {s : State} {c : Client} (hidle : s.arbiter.current = none) (hn : s.arbiter.next = some c)
    (hbusy : (s.grant c).arbiter.current.isSome = true) : s.endEvent = (s.grant c).settle := by
  have harbitrate : s.arbitrate 6 = (s.grant c).arbitrate 5 := by
    rw [State.arbitrate, if_neg (by simp [hidle]), hn]
  unfold State.endEvent
  rw [harbitrate, arbitrate_busy _ _ hbusy]

/-- Settles O58: the ring turned to the last-served client, and each whole-frame grant's access. -/
theorem arbiterServesRing : Obligations.ArbiterServesRing := by
  refine ⟨endEvent_of_store, fun a n d c hn hd1 hd5 hl hc hw hfirst => ?_, grant_eq, fun s f rest hq => ?_,
      fun s j rest hj => ?_,
    fun s f work he => ?_, fun s hidle _ c hn _ hbusy => endEvent_of_grant hidle hn hbusy⟩
  · obtain ⟨d, rfl⟩ : ∃ k, d = k + 1 := ⟨d - 1, by omega⟩
    refine next_of_ring ((ring_getElem? hn (by omega) hl).trans hc) hw fun e c' he hc' => ?_
    exact hfirst (e + 1) c' (by omega) (by omega) ((ring_getElem? hn (by omega) hl).symm.trans hc')
  · have hbegin : s.runAccess .clearer = s.begin (.clear f) (s.memory.clearFrame f) := by simp only [State.runAccess, hq]
    exact hbegin
  · have hbegin : s.runAccess .copyEngine = s.begin (.copy j.source j.target (s.memory.errorsIn (frameWords j.source)))
        (s.memory.frameCopy j.source j.target).1 := by
      simp only [State.runAccess, hj]
      rfl
    exact hbegin
  · have hbegin : s.runAccess .scrubber = s.begin (.check f (s.memory.errorsIn (frameWords f)))
        (s.memory.frameCheck f).1 := by
      simp only [State.runAccess, he]
      rfl
    exact hbegin

end Sys2Proof.Machine
end

section
/-! THEOREMS. SLOT_INFO and FRAME_INFO report a record and change nothing (R23, R176, Tables 10-10 and 10-11). -/

namespace Sys2Proof.Machine

variable {s : State} {i : LinkId} {tag : Byte}

/-- A request answered with one reply and nothing else, on a link that can answer at once. -/
theorem Ready_reply (h : s.Ready i tag) (k : RequestKind) (payload : List Byte) :
    ((s.heard i).reply i k tag payload).finish = ((s.heard i).answered i k.code tag payload).settle :=
  Stable_finish h.stable (by rw [reply_arbiter, heard_arbiter]) fun j => by rw [canTake_reply, canTake_heard]

theorem exec_slotInfo (h : s.Ready i tag) (k : Byte) :
    exec (.slotInfo i tag [k]) s = .next (serveSlotInfo i tag k (s.heard i)).finish :=
  congrArg _ (Ready_immediate h .slotInfo [k] rfl rfl)

theorem exec_frameInfo (h : s.Ready i tag) (a b : Byte) :
    exec (.frameInfo i tag [a, b]) s = .next (serveFrameInfo i tag (nat16 a b) (s.heard i)).finish :=
  congrArg _ (Ready_immediate h .frameInfo [a, b] rfl rfl)

/-! ### Fields of the reports -/

/-- A two-byte field sent back is the field received (R189). -/
theorem be16_nat16 (a b : Byte) : be16 (nat16 a b) = [a, b] := by
  have ha := a.isLt
  have hb := b.isLt
  have high : u8 (nat16 a b / 256) = a := BitVec.eq_of_toNat_eq (by
    unfold u8 nat16
    rw [BitVec.toNat_ofNat]
    omega)
  have low : u8 (nat16 a b) = b := BitVec.eq_of_toNat_eq (by
    unfold u8 nat16
    rw [BitVec.toNat_ofNat]
    omega)
  unfold be16
  rw [high, low]

theorem slot?_eq_none {k : Byte} (h : 4 ≤ k.toNat) : slot? k = none := dif_neg (Nat.not_lt.2 h)

theorem slot?_eq_some {k : Byte} {slot : SlotId} (h : k.toNat = slot.val) : slot? k = some slot := by
  unfold slot?
  rw [dif_pos (h ▸ slot.isLt)]
  exact congrArg some (Fin.ext h)

theorem frame?_eq_none {n : Nat} (h : 4096 ≤ n) : frame? n = none := dif_neg (Nat.not_lt.2 h)

theorem frame?_eq_some {n : Nat} {f : FrameId} (h : f.val = n) : frame? n = some f := by
  subst h
  exact dif_pos f.isLt

theorem direction_code (d : Direction) : d.code = if d = .write then 1 else 0 := by cases d <;> rfl

theorem lastSegment_code (toggle : Bool) : (1 : Byte) ||| (if toggle then 2 else 0) = if toggle then 3 else 1 := by
  cases toggle <;> rfl

/-- The code of the job a slot waits on, by the job's kind (R176). -/
theorem waiterCode_eq (job : Option CopyJob) : waiterCode (job.map CopyJob.kind) = match job with
    | none => 0
    | some j => if j.entry?.isSome then 1 else 2 := by
  rcases job with _ | ⟨_ | _, _, _, _, _⟩ <;> rfl

theorem lastError_flag (e : Option LastError) :
    (if e.isSome then (8 : Byte) else 0) = if e = none then 0 else 8 := by
  cases e <;> rfl

/-! ### SLOT_INFO -/

theorem slotInfo_range (h : s.Ready i tag) {k : Byte} (hk : 4 ≤ k.toNat) : exec (.slotInfo i tag [k]) s =
    .next ((s.heard i).answered i 0x23 tag (0x17 :: List.replicate 23 0)).settle := by
  rw [exec_slotInfo h]
  unfold serveSlotInfo
  rw [slot?_eq_none hk]
  exact congrArg _ (Ready_reply h .slotInfo _)

theorem slotInfo_idle (h : s.Ready i tag) {k : Byte} {slot : SlotId} (hk : k.toNat = slot.val) {last : Option LastOutcome}
    (hs : s.slot (i, slot) = .idle last) : exec (.slotInfo i tag [k]) s =
    .next ((s.heard i).answered i 0x23 tag ([0x00, k, 0] ++ (List.replicate 17 0 ++ match last with
      | none => List.replicate 4 0
      | some o => o.status.code :: be24 o.position))).settle := by
  rw [exec_slotInfo h]
  unfold serveSlotInfo
  rw [slot?_eq_some hk]
  dsimp only
  rw [slot_heard, hs]
  exact congrArg _ (Ready_reply h .slotInfo _)

/-- The report of an open slot (Table 10-10). -/
theorem slotInfo_active (h : s.Ready i tag) {k : Byte} {slot : SlotId} (hk : k.toNat = slot.val) {t : Transfer}
    (hs : s.slot (i, slot) = .active t) : exec (.slotInfo i tag [k]) s =
    .next ((s.heard i).answered i 0x23 tag ([0x00, k, (Slot.active t).code] ++
      ([t.direction.code, if t.counted then spaceByte t.space else 0] ++ be24 t.start ++ be24 t.length ++
        be24 t.position ++ [flag t.toggle] ++
        (match t.last with
          | none => [0, 0]
          | some l => [1 ||| (if l.toggle then 2 else 0), u8 l.count]) ++
        [match t.phase with
          | .halted c => c.code
          | _ => 0,
         waiterCode ((s.waitsOn (i, slot)).map CopyJob.kind), t.timer.code] ++ List.replicate 4 0))).settle := by
  rw [exec_slotInfo h]
  unfold serveSlotInfo
  rw [slot?_eq_some hk]
  dsimp only
  rw [slot_heard, hs]
  have hjobs : (s.heard i).waitsOn (i, slot) = s.waitsOn (i, slot) := by
    unfold State.waitsOn
    rw [heard_jobs]
  rw [hjobs]
  exact congrArg _ (Ready_reply h .slotInfo _)

/-! ### FRAME_INFO -/

theorem frameInfo_range (h : s.Ready i tag) {a b : Byte} (hn : 4096 ≤ nat16 a b) : exec (.frameInfo i tag [a, b]) s =
    .next ((s.heard i).answered i 0x30 tag (0x17 :: List.replicate 11 0)).settle := by
  rw [exec_frameInfo h]
  unfold serveFrameInfo
  rw [frame?_eq_none hn]
  exact congrArg _ (Ready_reply h .frameInfo _)

/-- The report of a frame (Table 10-11). -/
theorem frameInfo_frame (h : s.Ready i tag) {a b : Byte} {f : FrameId} (hf : f.val = nat16 a b) :
    exec (.frameInfo i tag [a, b]) s = .next ((s.heard i).answered i 0x30 tag
      (0x00 :: be16 f.val ++
        [(s.frame f).state.code, u8 (s.frame f).shareCount, u8 (s.frame f).tally,
          (s.frame f).flagByte ||| (if (s.frame f).lastError.isSome then 8 else 0)] ++
        (match (s.frame f).lastError with
          | none => [0, 0, 0, 0]
          | some e => [u8 e.word.val, e.kind.code, e.kind.bitByte, e.finder.code]) ++
        [u8 ((s.frame f).state.refs.take 16).length] ++
        ((s.frame f).state.refs.take 16).flatMap fun p => [spaceByte p.1, u8 p.2.val])).settle := by
  rw [exec_frameInfo h]
  unfold serveFrameInfo
  rw [frame?_eq_some hf]
  dsimp only
  rw [frame_heard]
  exact congrArg _ (Ready_reply h .frameInfo _)

/-- Settles O40: each request's one reply, its payload read field by field. -/
theorem recordsReported : Obligations.RecordsReported := by
  refine ⟨fun s i tag k h => ⟨fun hk => slotInfo_range h hk, fun slot hk => ⟨fun hs => slotInfo_idle h hk hs, fun o hs => ?_,
    fun t hs => ?_⟩⟩, fun s i tag a b h => ⟨fun hn => frameInfo_range h hn, fun f hf => ?_⟩⟩
  · rw [slotInfo_idle h hk hs]
    simp only [List.append_assoc, List.cons_append, List.nil_append]
  · rw [slotInfo_active h hk hs, direction_code, waiterCode_eq]
    simp only [lastSegment_code, List.append_assoc, List.cons_append, List.nil_append]
    rfl
  · rw [frameInfo_frame h hf, lastError_flag, hf, be16_nat16]
    dsimp only
    rcases (s.frame f).lastError with _ | ⟨word, kind, finder⟩
    · rfl
    · cases kind <;> rfl

end Sys2Proof.Machine
end

section
/-! THEOREMS. UNMAP detaches the present pages of its range, and a frame left with none is released (R13, R21, R34, R35, R53,
R59, R60). -/

namespace Sys2Proof.Machine

variable {s : State} {i : LinkId} {tag : Byte}

/-! ### A release, written out -/

theorem outOfService_eq (s : State) (f : FrameId) : s.outOfService f false = s.retireFrame f false := by
  unfold State.outOfService State.retireFrame
  simp only [Bool.false_eq_true, if_false, Nat.add_zero, List.length_append, List.length_singleton]

/-- What a release does is what the manual says of it (R34, R35). -/
theorem letGo_eq_release (s : State) (f : FrameId) : s.letGo f = s.release f := by
  unfold State.letGo State.release
  rw [outOfService_eq]
  split
  · rfl
  · have hcons : s.clearQueue ++ [f] ≠ [] := by simp
    unfold State.kickClearer State.present Arbiter.clearing
    simp only [setFrame_clearQueue, hcons, setFrame_arbiter, false_or]
    rcases s.arbiter.current with _ | ⟨⟨_⟩ | ⟨_, _, _⟩ | ⟨_, _⟩⟩ <;> by_cases hw : Client.clearer ∈ s.arbiter.waiting <;>
      simp [hw] <;> rfl

/-! ### The part after detaches -/

/-- A release presents no access but the Clearer's (R26). -/
theorem mem_release_waiting {f : FrameId} {c : Client} (h : c ∈ (s.release f).arbiter.waiting) :
    c ∈ s.arbiter.waiting ∨ c = .clearer := by
  unfold State.release at h
  split at h
  · exact Or.inl ((sameWork_retireFrame s f false).presented c h)
  · unfold State.kickClearer at h
    split at h
    · exact Or.inl h
    · rw [mem_present_waiting] at h
      exact h

@[simp] theorem canTake_retireFrame (s : State) (f : FrameId) (d : Bool) (j : LinkId) :
    ((s.retireFrame f d).link j).canTake = (s.link j).canTake := by
  unfold State.retireFrame
  rw [canTake_raiseBoth, link_setFrame]
  cases j <;> rfl

@[simp] theorem canTake_release (s : State) (f : FrameId) (j : LinkId) :
    ((s.release f).link j).canTake = (s.link j).canTake := by
  unfold State.release
  split
  · exact canTake_retireFrame ..
  · rw [link_kickClearer, link_setFrame]
    cases j <;> rfl

/-- Detaches present no access but the Clearer's, and leave what awaits intake. -/
theorem detach_keeps (s : State) (p : BackRef) :
    (∀ c ∈ (s.detach p).1.arbiter.waiting, c ∈ s.arbiter.waiting ∨ c = .clearer) ∧
      ∀ j, ((s.detach p).1.link j).canTake = (s.link j).canTake := by
  unfold State.detach
  split
  · exact ⟨fun c hc => Or.inl hc, fun j => rfl⟩
  · next e he =>
    have dropped : ∀ r, ((s.setEntry p none).setFrame e.frame r).arbiter = s.arbiter ∧
        ∀ j, (((s.setEntry p none).setFrame e.frame r).link j) = s.link j := fun r => by simp
    dsimp only
    split
    · dsimp only
      split
      · exact ⟨fun c hc => Or.inl (by rwa [(dropped _).1] at hc), fun j => by rw [(dropped _).2]⟩
      · refine ⟨fun c hc => ?_, fun j => by rw [canTake_release, (dropped _).2]⟩
        exact (mem_release_waiting hc).imp_left fun hx => by rwa [(dropped _).1] at hx
    · exact ⟨fun c hc => Or.inl (by rwa [(dropped _).1] at hc), fun j => by rw [(dropped _).2]⟩

theorem detachAll_keeps (s : State) (ps : List BackRef) :
    (∀ c ∈ (s.detachAll ps).1.arbiter.waiting, c ∈ s.arbiter.waiting ∨ c = .clearer) ∧
      ∀ j, ((s.detachAll ps).1.link j).canTake = (s.link j).canTake := by
  rw [detachAll_eq_foldl]
  refine foldl_keeps (fun x : State => (∀ c ∈ x.arbiter.waiting, c ∈ s.arbiter.waiting ∨ c = .clearer) ∧
    ∀ j, (x.link j).canTake = (s.link j).canTake) _ ps (fun x p _ hx => ?_) s ⟨fun _ hc => Or.inl hc, fun _ => rfl⟩
  obtain ⟨hwait, htake⟩ := detach_keeps x p
  exact ⟨fun c hc => (hwait c hc).elim (hx.1 c) Or.inr, fun j => (htake j).trans (hx.2 j)⟩

/-- The number of detaches that emptied a list, counted on from a number (R59). -/
theorem detachAll_count (ps : List BackRef) : ∀ (s : State) (n : Nat),
    ps.foldl (fun (s, n) p => let (s', zero) := s.detach p; (s', if zero then n + 1 else n)) (s, n) =
      ((s.detachAll ps).1, n + (s.detachAll ps).2) := by
  induction ps with
  | nil => exact fun s n => rfl
  | cons p rest ih =>
    intro s n
    unfold State.detachAll
    rw [List.foldl_cons, List.foldl_cons]
    dsimp only
    rw [ih, ih]
    dsimp only
    split <;> simp only [Nat.zero_add, Nat.add_assoc]

theorem detachAll_cons (s : State) (p : BackRef) (rest : List BackRef) : s.detachAll (p :: rest) =
    (((s.detach p).1.detachAll rest).1, (if (s.detach p).2 then 1 else 0) + ((s.detach p).1.detachAll rest).2) :=
  detachAll_count rest (s.detach p).1 (if (s.detach p).2 then 0 + 1 else 0)

/-- A detach of a present page (R13, R21, R53). -/
theorem detach_of_some {p : BackRef} {e : MapEntry} (he : s.entry p = some e) : s.detach p =
    let refs := (s.frame e.frame).state.refs.erase p
    let dropped := (s.setEntry p none).setFrame e.frame { s.frame e.frame with state := .held refs }
    if refs = [] then (if (s.frame e.frame).moving then dropped else dropped.release e.frame, true)
    else (dropped, false) := by
  unfold State.detach
  rw [he]

/-! ### The end of the event -/

/-- A whole-frame grant changes no link, and occupies the store or presents no access. -/
theorem grant_keeps_links (s : State) (c : Client) (hc : ∀ i, c ≠ .dataPath i) :
    (∀ j, (s.grant c).link j = s.link j) ∧
      ((s.grant c).arbiter.current.isSome = true ∨ ∀ d ∈ (s.grant c).arbiter.waiting, d ∈ s.arbiter.waiting) := by
  have begun : ∀ a m, (∀ j, ((s.serving c).begin a m).link j = s.link j) ∧
      (((s.serving c).begin a m).arbiter.current.isSome = true ∨
        ∀ d ∈ ((s.serving c).begin a m).arbiter.waiting, d ∈ s.arbiter.waiting) :=
    fun a m => ⟨fun j => (link_begin ..).trans (link_serving ..), Or.inl rfl⟩
  rw [grant_eq]
  rcases runAccess_cases (s.serving c) c hc with ⟨he, _⟩ | ⟨_, _, _, _, he⟩ | ⟨_, _, _, _, he⟩ | ⟨_, _, _, _, he⟩ <;> rw [he]
  · exact ⟨link_serving s c, Or.inr fun d hd => ((mem_serving ..).1 hd).1⟩
  · exact begun _ _
  · exact begun _ _
  · exact begun _ _

/-- Grants of whole frames change no link. -/
theorem arbitrate_link (n : Nat) (j : LinkId) : ∀ s : State,
    s.arbiter.current.isSome = true ∨ (∀ c ∈ s.arbiter.waiting, ∀ i, c ≠ .dataPath i) →
      (s.arbitrate n).link j = s.link j := by
  induction n with
  | zero => exact fun s _ => rfl
  | succ n ih =>
    intro s h
    rcases h with h | h
    · rw [arbitrate_busy _ _ h]
    · unfold State.arbitrate
      split
      · rfl
      · split
        · rfl
        · next c hn =>
          obtain ⟨hlinks, hwait⟩ := grant_keeps_links s c (h c (next_mem hn))
          rw [ih _ (hwait.imp_right fun hx d hd => h d (hx d hd)), hlinks]

/-- Where only the Clearer presents an access, the step ends with its first event. -/
theorem finish_of_clearer {t : State} (h : s.Stable) (hc : t.arbiter.current = s.arbiter.current)
    (hw : ∀ c ∈ t.arbiter.waiting, c ∈ s.arbiter.waiting ∨ c = .clearer)
    (ht : ∀ j, (t.link j).canTake = (s.link j).canTake) : t.finish = t.endEvent := by
  refine finish_of_taken t fun j => ?_
  have hstore : t.arbiter.current.isSome = true ∨ ∀ c ∈ t.arbiter.waiting, ∀ i, c ≠ .dataPath i := by
    rw [hc]
    refine h.store.imp_right fun hnil c hmem i => ?_
    rcases hw c hmem with hx | hx
    · rw [hnil] at hx; cases hx
    · rw [hx]; nofun
  unfold State.endEvent
  rw [link_settle, settle_canTake, arbitrate_link 6 j t hstore, ht, h.taken j]

/-! ### UNMAP -/

/-- A link of rank 2 may write (R49, Table 3-3). -/
theorem allows_write {r : SpaceRecord} (h : 2 ≤ r.rank i) : r.allows i .write = true := by
  unfold SpaceRecord.rank at h
  unfold SpaceRecord.allows
  split
  · rfl
  · next hne =>
    rw [if_neg hne] at h
    cases hg : r.guest <;> simp_all

theorem findSpace_holds {id : Byte} {sp : SpaceId} {r : SpaceRecord} (h : s.Holds i id 2 sp r) :
    s.findSpace i id .write = .ok (sp, r) := by
  have hid : space? id = some sp := by
    have hlt := sp.isLt
    have hn := h.named
    unfold space?
    rw [dif_pos (by omega)]
    exact congrArg some (Fin.ext (by dsimp only; omega))
  unfold State.findSpace
  rw [hid]
  dsimp only
  rw [h.live]
  dsimp only
  rw [if_pos (allows_write h.right)]

/-- Settles O36: the range's present pages detached in order, each as the manual says, and no message taken at the end. -/
theorem unmapDetaches : Obligations.UnmapDetaches := by
  refine ⟨fun s i tag id a b c d sp r h hholds h1 h2 h3 => ?_, fun s => rfl, detachAll_cons, fun s p e he => ?_⟩
  · have hheard : (s.heard i).Holds i id 2 sp r := ⟨hholds.named, by rw [space_heard]; exact hholds.live, hholds.right⟩
    have hrange : (s.heard i).findRange i id .write (nat16 a b) (nat16 c d) =
        .ok (rangePages sp (nat16 a b) (nat16 c d)) := by
      unfold State.findRange
      rw [findSpace_holds hheard]
      dsimp only
      have hok : r.rangeOk (nat16 a b) (nat16 c d) = true := decide_eq_true ⟨h1, h2, h3⟩
      rw [if_pos hok, pagesFrom_eq]
    have hpresent : (s.heard i).present? = fun p => (s.entry p).isSome :=
      funext fun p => congrArg Option.isSome (entry_heard s i p)
    intro present
    have hserve : serveUnmap i tag id (nat16 a b) (nat16 c d) (s.heard i) =
        ((s.heard i).detachAll present).1.reply i .unmap tag (Status.ok.code :: be16 present.length) := by
      unfold serveUnmap
      rw [hrange, hpresent]
    have hexec : exec (.unmap i tag [id, a, b, c, d]) s =
        .next (serveUnmap i tag id (nat16 a b) (nat16 c d) (s.heard i)).finish :=
      congrArg _ (Ready_immediate h .unmap [id, a, b, c, d] rfl rfl)
    rw [hexec, hserve]
    obtain ⟨hwait, htake⟩ := detachAll_keeps (s.heard i) present
    refine congrArg _ (finish_of_clearer h.stable ?_ (fun c hc => ?_) fun j => ?_)
    · rw [reply_arbiter, (orderly_detachAll ..).current, heard_arbiter]
    · rw [reply_arbiter] at hc
      have := hwait c hc
      rwa [heard_arbiter] at this
    · rw [canTake_reply, htake, canTake_heard]
  · intro r refs loose
    refine ⟨fun hr => ?_, fun hr hm => ?_, fun hr hm => ?_⟩ <;> rw [detach_of_some he]
    · exact if_neg hr
    · refine (if_pos hr).trans ?_
      rw [if_pos hm]
    · refine (if_pos hr).trans ?_
      rw [if_neg (by rw [hm]; decide), ← letGo_eq_release]

end Sys2Proof.Machine
end

section
/-! THEOREMS. A FREE frame that a check, or the copy of a FREE source, resolves (R33, R76, R99). -/

namespace Sys2Proof.Machine

/-- A frame out of service is RETIRED, discretionary or not (R103, R104). -/
theorem outOfService_eq_retireFrame (s : State) (f : FrameId) (d : Bool) : s.outOfService f d = s.retireFrame f d := by
  cases d with
  | false => exact outOfService_eq s f
  | true =>
    unfold State.outOfService State.retireFrame
    simp only [if_true, List.length_append, List.length_singleton]

/-- A shortened free queue is a fall of the free count examined (R36, R39). -/
theorem freeFalls_eq_examineFall (s : State) (queue : List FrameId) :
    s.freeFalls queue = State.examineFall { s with freeQueue := queue } := by
  unfold State.freeFalls State.examineFall State.setSupply SupplyState.afterFall State.freeCount
  dsimp only
  cases hs : s.supply with
  | normal =>
    by_cases hlow : queue.length < s.lowMark
    · simp only [hlow, and_self, if_true, reduceCtorEq, if_false]
    · simp only [hlow, and_false, if_false, if_true]
  | low => simp only [reduceCtorEq, false_and, if_false, if_true]

/-- A FREE frame retired leaves its place in the free queue (R33). -/
theorem retireFree_eq_freeFalls (s : State) (f : FrameId) (d : Bool) :
    s.retireFree f d = (s.freeFalls (s.freeQueue.erase f)).outOfService f d := by
  rw [outOfService_eq_retireFrame, freeFalls_eq_examineFall]
  rfl

/-- Settles O51: the four branches of the frame's resolution, its retirement written out. -/
theorem freeFrameResolved : Obligations.FreeFrameResolved := by
  intro s f _ r
  have resolve : s.resolveFree f =
      if r.poisoned then s.retireFree f false
      else if r.retirePending then
        if s.scrub.discretionary < 256 then s.retireFree f true else s.setFrame f { r with retirePending := false }
      else s := rfl
  rw [← retireFree_eq_freeFalls, ← retireFree_eq_freeFalls, resolve]
  refine ⟨fun hp => if_pos hp, fun hp hr hd => ?_, fun hp hr hd => ?_, fun hp hr => ?_⟩
  · simp only [hp, hr, hd, Bool.false_eq_true, if_false, if_true]
  · simp only [hp, hr, Nat.not_lt.2 hd, Bool.false_eq_true, if_false, if_true]
  · simp only [hp, hr, Bool.false_eq_true, if_false]

end Sys2Proof.Machine
end

section
/-! THEOREMS. WAIT_FREE and the expiry of its timer (R40, R42). -/

namespace Sys2Proof.Machine

variable {s : State} {i : LinkId} {tag : Byte}

/-! ### Replies to deferred requests -/

/-- A deferred request's reply changes its link alone, in one update (R140). -/
theorem answer_eq_repliedDeferred (s : State) (i : LinkId) (k : DeferredKind) (tag : Byte) (p : List Byte) :
    s.answer i k tag p = s.repliedDeferred i k.code tag p := by
  unfold State.answer State.enqueue State.repliedDeferred
  rw [onLink_onLink]
  rfl

@[simp] theorem repliedDeferred_arbiter (s : State) (i : LinkId) (k tag : Byte) (p : List Byte) :
    (s.repliedDeferred i k tag p).arbiter = s.arbiter := onLink_arbiter ..

@[simp] theorem canTake_repliedDeferred (s : State) (i j : LinkId) (k tag : Byte) (p : List Byte) :
    ((s.repliedDeferred i k tag p).link j).canTake = (s.link j).canTake := canTake_onLink _ _ _ _ rfl rfl

/-! ### Deferred requests taken -/

@[simp] theorem deferredPending_scrub (s : State) (i : LinkId) (d : DeferredKind) (tag : Byte) :
    (s.deferredPending i d tag).scrub = s.scrub := onLink_scrub ..

@[simp] theorem deferredPending_freeQueue (s : State) (i : LinkId) (d : DeferredKind) (tag : Byte) :
    (s.deferredPending i d tag).freeQueue = s.freeQueue := onLink_freeQueue ..

@[simp] theorem deferredPending_waiters (s : State) (i : LinkId) (d : DeferredKind) (tag : Byte) :
    (s.deferredPending i d tag).waiters = s.waiters := onLink_waiters ..

@[simp] theorem deferredPending_arbiter (s : State) (i : LinkId) (d : DeferredKind) (tag : Byte) :
    (s.deferredPending i d tag).arbiter = s.arbiter := onLink_arbiter ..

@[simp] theorem canTake_deferredPending (s : State) (i j : LinkId) (d : DeferredKind) (tag : Byte) :
    ((s.deferredPending i d tag).link j).canTake = (s.link j).canTake := canTake_onLink _ _ _ _ rfl rfl

/-- A request entered PENDING and answered in its own taking, on a link that does not use its tag (R140). -/
theorem answer_deferredPending {d : DeferredKind} (hf : ∀ e ∈ (s.link i).deferred, e.tag ≠ tag) (p : List Byte) :
    (s.deferredPending i d tag).answer i d tag p = s.answeredDeferred i d tag p := by
  rw [answer_eq_repliedDeferred]
  unfold State.deferredPending State.repliedDeferred State.answeredDeferred
  rw [onLink_onLink]
  have others : (s.link i).deferred.map (fun e => if e.tag = tag then { e with answered := true } else e) =
      (s.link i).deferred := (List.map_congr_left fun e he => if_neg (hf e he)).trans (List.map_id' _)
  refine onLink_congr s i _ _ ?_
  dsimp only
  rw [List.map_append, others]
  simp only [List.map_cons, List.map_nil, if_true]

/-- A deferred request answered in its own taking, and nothing else, on a link that can answer at once. -/
theorem Ready_answer (h : s.Ready i tag) (d : DeferredKind) (p : List Byte) :
    (((s.heard i).deferredPending i d tag).answer i d tag p).finish = ((s.heard i).answeredDeferred i d tag p).settle := by
  rw [answer_deferredPending (by simpa using h.fresh)]
  refine Stable_finish h.stable ?_ fun j => ?_
  · exact (onLink_arbiter ..).trans (heard_arbiter ..)
  · exact (canTake_onLink _ _ _ _ rfl rfl).trans (canTake_heard ..)

/-! ### WAIT_FREE -/

theorem exec_waitFree (h : s.Ready i tag) (hd : (s.link i).deferred.length < 4) (a b c d : Byte) :
    exec (.waitFree i tag [a, b, c, d]) s =
      .next (serveWaitFree i tag (nat16 a b) (nat16 c d) ((s.heard i).deferredPending i .waitFree tag)).finish :=
  congrArg _ (Ready_request h .waitFree [a, b, c, d] rfl (Or.inr hd))

/-- What WAIT_FREE refuses (R40): a count or a timeout out of range, or a count that can never be free, beside a number
of RETIRED frames. -/
def WaitOutside (retired count timeout : Nat) : Prop :=
  count = 0 ∨ 4096 < count ∨ timeout = 0 ∨ 60000 < timeout ∨ 4096 < count + retired

theorem serveWaitFree_outside {count timeout : Nat} (h : WaitOutside s.scrub.retired.length count timeout) :
    serveWaitFree i tag count timeout s = s.answerWaitFree i tag .range := by
  unfold WaitOutside at h
  unfold serveWaitFree
  split
  · rfl
  · rw [if_pos (by omega)]

/-- A WAIT_FREE in range is answered at once, or joins the waiter list, by the free count (R40). -/
theorem serveWaitFree_inside {count timeout : Nat} (h : ¬WaitOutside s.scrub.retired.length count timeout) :
    (count ≤ s.freeQueue.length → serveWaitFree i tag count timeout s = s.answerWaitFree i tag .ok) ∧
    (s.freeQueue.length < count → serveWaitFree i tag count timeout s =
      { s with waiters := s.waiters ++ [{ link := i, tag, count, timeout }] }) := by
  unfold WaitOutside at h
  unfold serveWaitFree State.freeCount
  rw [if_neg (by omega), if_neg (by omega)]
  exact ⟨fun hn => if_pos hn, fun hn => if_neg (Nat.not_le.2 hn)⟩

/-- A WAIT_FREE answered in its own taking carries the free count. -/
theorem Ready_answerWaitFree (h : s.Ready i tag) (status : Status) :
    (((s.heard i).deferredPending i .waitFree tag).answerWaitFree i tag status).finish =
      ((s.heard i).answeredDeferred i .waitFree tag (status.code :: be16 s.freeQueue.length)).settle := by
  unfold State.answerWaitFree State.freeCount
  rw [deferredPending_freeQueue, heard_freeQueue]
  exact Ready_answer h .waitFree _

/-- A request that only joins the waiter list ends with the transmitters. -/
theorem Ready_wait (h : s.Ready i tag) (waiters : List Waiter) :
    State.finish { (s.heard i).deferredPending i .waitFree tag with waiters := waiters } =
      State.settle { (s.heard i).deferredPending i .waitFree tag with waiters := waiters } := by
  refine Stable_finish h.stable ?_ fun j => ?_
  · exact (deferredPending_arbiter ..).trans (heard_arbiter ..)
  · have taken := (canTake_deferredPending (s.heard i) i j .waitFree tag).trans (canTake_heard ..)
    cases j <;> exact taken

/-- The expiry of a waiter's timer (R42). -/
theorem expireWaiter_of_mem {w : Waiter} (hw : w ∈ s.waiters) : s.expireWaiter w.link w.tag =
    State.repliedDeferred { s with waiters := s.waiters.filter fun v => ¬(v.link = w.link ∧ v.tag = w.tag) } w.link 0x33
      w.tag (0x32 :: be16 s.freeQueue.length) := by
  have named : (s.waiters.any fun v => v.link = w.link ∧ v.tag = w.tag) = true :=
    List.any_eq_true.2 ⟨w, hw, decide_eq_true ⟨rfl, rfl⟩⟩
  unfold State.expireWaiter
  rw [if_pos named]
  exact answer_eq_repliedDeferred ..

/-- Settles O48: the request's three cases, and the expiry of a waiter that stands in the list. -/
theorem waitFreeAnswers : Obligations.WaitFreeAnswers := by
  refine ⟨fun s i tag a b c d h hd => ?_, fun s w h hw => ?_⟩
  · have run := exec_waitFree h hd a b c d
    let accepted : State := (s.heard i).deferredPending i .waitFree tag
    have scrub : accepted.scrub = s.scrub := by simp [accepted]
    have free : accepted.freeQueue = s.freeQueue := by simp [accepted]
    have waiters : accepted.waiters = s.waiters := by simp [accepted]
    refine ⟨fun hout => run.trans ?_, fun hin hn => run.trans ?_, fun hin hn => run.trans ?_⟩
    · rw [serveWaitFree_outside (s := accepted) (scrub ▸ hout)]
      exact congrArg _ (Ready_answerWaitFree h .range)
    · rw [(serveWaitFree_inside (s := accepted) (scrub ▸ hin)).1 (free ▸ hn)]
      exact congrArg _ (Ready_answerWaitFree h .ok)
    · rw [(serveWaitFree_inside (s := accepted) (scrub ▸ hin)).2 (free ▸ hn), waiters]
      exact congrArg _ (Ready_wait h _)
  · change Host.Outcome.next (s.expireWaiter w.link w.tag).finish = _
    rw [expireWaiter_of_mem hw]
    refine congrArg _ (Stable_finish h (repliedDeferred_arbiter ..) fun j => (canTake_repliedDeferred ..).trans ?_)
    cases j <;> rfl

end Sys2Proof.Machine
end

section
/-! THEOREMS. CONFIG of a setting with a value in range (R38, R39, R95, R102, R144–R146). -/

namespace Sys2Proof.Machine

variable {s : State} {i : LinkId} {tag : Byte}

/-! ### The request -/

theorem configItem?_code (c : ConfigItem) : configItem? ((u8 c.code).toNat % 128) = some c := by cases c <;> rfl

theorem configItem_not_query (c : ConfigItem) : (u8 c.code).msb = false := by cases c <;> rfl

/-- CONFIG of a setting with a value in its range (R145). -/
theorem serveConfig_inRange {c : ConfigItem} {v : Nat} (hv : c.inRange v = true) : serveConfig i tag (u8 c.code) v s =
    (s.setConfig i c v).reply i .config tag ([0x00, u8 c.code] ++ be16 v) := by
  unfold serveConfig
  rw [configItem?_code]
  dsimp only
  rw [configItem_not_query, if_neg (by decide), if_pos hv]
  rfl

@[simp] theorem canTake_setSupply (s : State) (st : SupplyState) (j : LinkId) :
    ((s.setSupply st).link j).canTake = (s.link j).canTake := by
  unfold State.setSupply
  split
  · rfl
  · rw [canTake_raiseBoth]
    cases j <;> rfl

/-- A setting presents no access and takes no message. -/
theorem setConfig_keeps (s : State) (i : LinkId) (c : ConfigItem) (v : Nat) :
    (s.setConfig i c v).arbiter = s.arbiter ∧ ∀ j, ((s.setConfig i c v).link j).canTake = (s.link j).canTake := by
  cases c with
  | noticeMask => exact ⟨onLink_arbiter .., fun j => canTake_onLink s i j _ rfl rfl⟩
  | dormancyInterval => exact ⟨onLink_arbiter .., fun j => canTake_onLink s i j _ rfl rfl⟩
  | slotTimeout => exact ⟨onLink_arbiter .., fun j => canTake_onLink s i j _ rfl rfl⟩
  | scrubInterval => exact ⟨rfl, fun j => by cases j <;> rfl⟩
  | retireThreshold => exact ⟨rfl, fun j => by cases j <;> rfl⟩
  | lowMark =>
    refine ⟨setSupply_arbiter .., fun j => (canTake_setSupply ..).trans ?_⟩
    cases j <;> rfl

/-- A CONFIG row with a value in range, on a link that can answer at once. -/
theorem Ready_config (h : s.Ready i tag) {c : ConfigItem} {high low : Byte} (hv : c.inRange (nat16 high low) = true) :
    s.configure i tag c [high, low] =
      (((s.heard i).setConfig i c (nat16 high low)).answered i 0x04 tag [0x00, u8 c.code, high, low]).settle := by
  obtain ⟨harb, htake⟩ := setConfig_keeps (s.heard i) i c (nat16 high low)
  have served : s.configure i tag c [high, low] =
      (serveConfig i tag (u8 c.code) (nat16 high low) (s.heard i)).finish :=
    Ready_immediate h .config [u8 c.code, high, low] rfl rfl
  rw [served, serveConfig_inRange hv, be16_nat16]
  refine Stable_finish h.stable ?_ fun j => ?_
  · rw [reply_arbiter, harb, heard_arbiter]
  · rw [canTake_reply, htake, canTake_heard]

/-! ### The settings -/

theorem nat16_zero (low : Byte) : nat16 0 low = low.toNat := by simp [nat16]

/-- A value that names classes 1–7 only is in the range of the notice mask (R145). -/
theorem inRange_noticeMask {low : Byte} (h : low.getLsbD 0 = false) : ConfigItem.noticeMask.inRange low.toNat = true := by
  have hlt := low.isLt
  have heven : low.toNat % 2 = 0 := by
    simpa [BitVec.getLsbD, Nat.testBit_zero] using h
  simp [ConfigItem.inRange, heven]
  omega

theorem setNoticeMask_toNat (s : State) (i : LinkId) (v : Byte) :
    s.setNoticeMask i v.toNat = s.onLink i fun l => { l with noticeMask := v } := by
  unfold State.setNoticeMask
  rw [BitVec.ofNat_toNat, BitVec.setWidth_eq]

/-- A slot timeout on a link that is UP starts or stops the timer of every open slot (R146, R170). -/
theorem setSlotTimeout_up (s : State) (i : LinkId) (v : Byte) (hu : (s.link i).state = .up) :
    s.setSlotTimeout i v.toNat = s.onLink i fun l => { l with
      slotTimeout := v.toNat
      slots := l.slots.map fun k => k.withTimer fun _ => if v = 0 then .stopped else .running } := by
  have timer : Link.startedTimer { s.link i with slotTimeout := v.toNat } = if v = 0 then .stopped else .running := by
    have hz : v.toNat = 0 ↔ v = 0 := by rw [← BitVec.toNat_inj]; rfl
    unfold Link.startedTimer
    simp only [hu, hz, reduceCtorEq, if_false]
  refine onLink_congr s i _ _ ?_
  simp only [Link.mk.injEq, true_and, and_true]
  refine Vector.toList_inj.1 ?_
  rw [Vector.toList_map]
  refine List.map_congr_left fun k _ => ?_
  cases k with
  | idle last => rfl
  | active t => exact congrArg (fun x => Slot.active { t with timer := x }) timer

/-- The low mark set re-examines the supply state, and a change of it raises FRAME_SUPPLY (R38, R39). -/
theorem setLowMark_eq (v : Nat) {old : SupplyState} {n : Nat} (hs : s.supply = old) (hn : s.freeQueue.length = n) :
    s.setLowMark v =
      let marked : State := { s with lowMark := v, supply := old.afterMark n v }
      if old.afterMark n v = old then marked else marked.raiseBoth (.frameSupply (old.afterMark n v) n) := by
  subst hs hn
  unfold State.setLowMark State.setSupply State.freeCount
  dsimp only
  split
  · next h => rw [h]
  · rfl

/-- The scrub interval set acts on the walk timer: a due visit stays due, and a walk check in progress keeps the timer
stopped (R95). -/
theorem setInterval_eq (c : Scrubber) (v : Nat) : c.setInterval v =
    { c with
      interval := v
      walkTimer :=
        if v = 0 then .stopped
        else if c.walkTimer = .due then .due
        else match c.engine with
          | .busy _ .walk => .stopped
          | _ => .running } := by
  unfold Scrubber.setInterval Scrubber.walkInProgress
  rcases c.engine with _ | ⟨f, _ | _ | _⟩ <;> rfl

/-- Settles O28: each setting's row is its `State.setConfig` and a reply, and each `State.setConfig` is written out. -/
theorem settingsSet : Obligations.SettingsSet := by
  refine ⟨fun s i tag high low h => ⟨?mask, ?dormancy, ?timeout⟩,
    fun s i tag high low h => ⟨?interval, ?threshold, ?mark⟩⟩
  case mask =>
    rintro rfl hl
    refine congrArg Host.Outcome.next ((Ready_config h (c := .noticeMask) ?_).trans ?_)
    · rw [nat16_zero]; exact inRange_noticeMask hl
    · rw [State.setConfig, nat16_zero, setNoticeMask_toNat]; rfl
  case dormancy =>
    rintro rfl
    refine congrArg Host.Outcome.next ((Ready_config h (c := .dormancyInterval) ?_).trans ?_)
    · rw [nat16_zero]; exact decide_eq_true (by omega)
    · rw [State.setConfig, nat16_zero]; rfl
  case timeout =>
    rintro rfl
    refine congrArg Host.Outcome.next ((Ready_config h (c := .slotTimeout) ?_).trans ?_)
    · rw [nat16_zero]; exact decide_eq_true (by omega)
    · rw [State.setConfig, nat16_zero, setSlotTimeout_up _ _ _ (by simpa using h.up)]; rfl
  case interval =>
    intro hn
    refine congrArg Host.Outcome.next ((Ready_config h (c := .scrubInterval) (decide_eq_true hn)).trans ?_)
    rw [State.setConfig, State.setScrubInterval, setInterval_eq, heard_scrub]
    rfl
  case threshold =>
    intro least greatest
    refine congrArg Host.Outcome.next ((Ready_config h (c := .retireThreshold) ?_).trans ?_)
    · exact Bool.and_eq_true_iff.2 ⟨decide_eq_true least, decide_eq_true greatest⟩
    · rw [State.setConfig, State.setThreshold, heard_scrub]; rfl
  case mark =>
    intro hn
    refine congrArg Host.Outcome.next ((Ready_config h (c := .lowMark) (decide_eq_true hn)).trans ?_)
    rw [State.setConfig, setLowMark_eq _ (heard_supply ..) (congrArg List.length (heard_freeQueue ..))]
    rfl

end Sys2Proof.Machine
end

section
/-! THEOREMS. The completion of a clear (R27, R28, R37, R39, R41, R110). -/

namespace Sys2Proof.Machine

variable {s : State} {f : FrameId}

/-! ### Who waits for the store -/

/-- A part with its arbiter replaced. -/
def State.withArbiter (s : State) (a : Arbiter) : State := { s with arbiter := a }

section Arbiter

variable (s : State) (f : FrameId) (a : Arbiter)

theorem onLink_withArbiter (i : LinkId) (c : Link → Link) : (s.withArbiter a).onLink i c = (s.onLink i c).withArbiter a := by
  cases i <;> rfl

theorem raiseBoth_withArbiter (n : Notice) : (s.withArbiter a).raiseBoth n = (s.raiseBoth n).withArbiter a := by
  unfold State.raiseBoth State.raiseOn
  rw [onLink_withArbiter, onLink_withArbiter]

theorem answer_withArbiter (i : LinkId) (k : DeferredKind) (tag : Byte) (p : List Byte) :
    (s.withArbiter a).answer i k tag p = (s.answer i k tag p).withArbiter a := by
  unfold State.answer State.enqueue
  rw [onLink_withArbiter, onLink_withArbiter]

theorem retireFrame_withArbiter (d : Bool) : (s.withArbiter a).retireFrame f d = (s.retireFrame f d).withArbiter a := by
  unfold State.retireFrame
  dsimp only
  rw [← raiseBoth_withArbiter]
  rfl

theorem setSupply_withArbiter (st : SupplyState) : (s.withArbiter a).setSupply st = (s.setSupply st).withArbiter a := by
  unfold State.setSupply
  rw [apply_ite (State.withArbiter · a), ← raiseBoth_withArbiter]
  rfl

theorem makeFree_withArbiter : (s.withArbiter a).makeFree f = (s.makeFree f).withArbiter a := by
  unfold State.makeFree State.examineRise
  rw [← setSupply_withArbiter]
  rfl

theorem resolveCleared_withArbiter : (s.withArbiter a).resolveCleared f = (s.resolveCleared f).withArbiter a := by
  unfold State.resolveCleared
  rw [retireFrame_withArbiter, retireFrame_withArbiter, makeFree_withArbiter]
  dsimp only
  rw [apply_ite (State.withArbiter · a), apply_ite (State.withArbiter · a)]
  rfl

/-- Steps that do not read the arbiter, one after another. -/
theorem foldl_withArbiter {α : Type} (step : State → α → State)
    (h : ∀ (x : State) (q : α), step (x.withArbiter a) q = (step x q).withArbiter a) (l : List α) :
    l.foldl step (s.withArbiter a) = (l.foldl step s).withArbiter a := by
  induction l generalizing s with
  | nil => rfl
  | cons q rest ih => rw [List.foldl_cons, List.foldl_cons, h, ih]

theorem answerRetireWait_withArbiter : (s.withArbiter a).answerRetireWait f = (s.answerRetireWait f).withArbiter a := by
  unfold State.answerRetireWait
  dsimp only
  rw [← foldl_withArbiter _ a _ fun x q => answer_withArbiter x a q.link .retire q.tag _]
  rfl

theorem examineWaiters_withArbiter : (s.withArbiter a).examineWaiters = s.examineWaiters.withArbiter a := by
  unfold State.examineWaiters
  dsimp only
  rw [← foldl_withArbiter _ a _ fun x w => answer_withArbiter x a w.link .waitFree w.tag _]
  rfl

end Arbiter

/-! ### The order of the event -/

/-- The Clearer's turn to the next frame, once its own access has ended (R26). -/
def State.nextClear (s : State) : State := s.withArbiter
  { s.arbiter with
    current := none
    waiting := if s.clearQueue = [] ∨ .clearer ∈ s.arbiter.waiting then s.arbiter.waiting
      else s.arbiter.waiting ++ [.clearer] }

theorem kickClearer_of_idle (h : s.arbiter.current = none) : s.kickClearer = s.nextClear := by
  have same : s = s.withArbiter { s.arbiter with current := none } := by
    unfold State.withArbiter
    rw [← h]
  have idle : s.arbiter.clearing = false := by
    unfold Arbiter.clearing
    rw [h]
  unfold State.kickClearer State.nextClear State.present
  by_cases hq : s.clearQueue = []
  · rw [if_pos (Or.inl hq), if_pos (Or.inl hq)]
    exact same
  · rw [if_neg (by simp [hq, idle])]
    by_cases hw : Client.clearer ∈ s.arbiter.waiting
    · rw [if_pos hw, if_pos (Or.inr hw)]
      exact same
    · rw [if_neg hw, if_neg (by simp [hq, hw]), ← h]
      rfl

/-- The cleared frame resolved, the RETIRE requests that wait for it answered, then the waiters that a rise satisfies. -/
def State.resolveAndTell (s : State) (f : FrameId) : State :=
  let resolved := (s.resolveCleared f).answerRetireWait f
  if (resolved.frame f).state = FrameState.free then resolved.examineWaiters else resolved

theorem resolveAndTell_withArbiter (s : State) (f : FrameId) (a : Arbiter) :
    (s.withArbiter a).resolveAndTell f = (s.resolveAndTell f).withArbiter a := by
  unfold State.resolveAndTell
  rw [resolveCleared_withArbiter, answerRetireWait_withArbiter]
  dsimp only
  rw [examineWaiters_withArbiter, apply_ite (State.withArbiter · a)]
  rfl

theorem resolveAndTell_arbiter (s : State) (f : FrameId) : (s.resolveAndTell f).arbiter = s.arbiter :=
  (congrArg State.arbiter (resolveAndTell_withArbiter s f s.arbiter) :)

theorem resolveCleared_clearQueue (s : State) (f : FrameId) : (s.resolveCleared f).clearQueue = s.clearQueue := by
  unfold State.resolveCleared
  dsimp only
  split_ifs
  · simp [State.retireFrame]
  · simp [State.retireFrame]
  · simp [State.makeFree, State.examineRise]

theorem resolveAndTell_clearQueue (s : State) (f : FrameId) : (s.resolveAndTell f).clearQueue = s.clearQueue := by
  have told := (calm_answerRetireWait (s.resolveCleared f) f).clearQueue.trans (resolveCleared_clearQueue s f)
  unfold State.resolveAndTell
  dsimp only
  split
  · exact (calm_examineWaiters _).clearQueue.trans told
  · exact told

/-- The Clearer turns to the next frame as well before the frame is resolved: nothing there reads who waits. -/
theorem completeClear_eq_nextClear (h : s.arbiter.current = none) (f : FrameId) :
    s.completeClear f = (State.nextClear { s with clearQueue := s.clearQueue.erase f }).resolveAndTell f := by
  have run : s.completeClear f = (State.resolveAndTell { s with clearQueue := s.clearQueue.erase f } f).kickClearer := rfl
  rw [run, kickClearer_of_idle (by rw [resolveAndTell_arbiter]; exact h)]
  unfold State.nextClear
  rw [resolveAndTell_withArbiter, resolveAndTell_arbiter, resolveAndTell_clearQueue]

/-! ### Those who are told -/

/-- The RETIRE requests that wait for the frame, answered with its state and the retired total (R110, R112). -/
theorem answerRetireWait_eq {status : Status} {wait : List FrameRequest} (hw : s.scrub.retireWait = wait)
    (hs : (if (s.frame f).state = .retired then Status.ok else .limit) = status) : s.answerRetireWait f =
    (wait.filter fun q => q.frame = f).foldl
      (fun x q => x.repliedDeferred q.link 0x31 q.tag
        ([status.code] ++ be16 f.val ++ [(x.frame f).state.code] ++ be16 x.scrub.retired.length))
      { s with scrub := { s.scrub with retireWait := wait.filter fun q => q.frame ≠ f } } := by
  subst hw hs
  unfold State.answerRetireWait State.answerRetire
  simp only [answer_eq_repliedDeferred]
  rfl

/-- Waiters answered OK one after another: each reply carries the same free count (R41). -/
theorem answerWaiters_eq (ws : List Waiter) {n : Nat} : ∀ x : State, x.freeQueue.length = n →
    ws.foldl (fun x w => x.answerWaitFree w.link w.tag .ok) x =
      ws.foldl (fun x w => x.repliedDeferred w.link 0x33 w.tag (0x00 :: be16 n)) x := by
  induction ws with
  | nil => exact fun _ _ => rfl
  | cons w rest ih =>
    intro x hn
    have first : x.answerWaitFree w.link w.tag .ok = x.repliedDeferred w.link 0x33 w.tag (0x00 :: be16 n) := by
      rw [← hn]
      exact answer_eq_repliedDeferred ..
    rw [List.foldl_cons, List.foldl_cons, first, ih _ (by rw [← first, (calm_answerWaitFree ..).freeQueue, hn])]

/-- The waiters that the free count satisfies, answered in order and removed (R41). -/
theorem examineWaiters_eq {waiters : List Waiter} {n : Nat} (hw : s.waiters = waiters) (hn : s.freeQueue.length = n) :
    s.examineWaiters = (waiters.filter fun w => w.count ≤ n).foldl
      (fun x w => x.repliedDeferred w.link 0x33 w.tag (0x00 :: be16 n))
      { s with waiters := waiters.filter fun w => n < w.count } := by
  subst hw hn
  unfold State.examineWaiters State.freeCount
  simp only [Nat.not_le]
  exact answerWaiters_eq _ _ rfl

theorem answerRetireWait_waiters (s : State) (f : FrameId) : (s.answerRetireWait f).waiters = s.waiters :=
  foldl_keeps (fun x : State => x.waiters = s.waiters) _ _
    (fun x q _ hx => by simpa [State.answerRetire, State.answer] using hx) _ rfl

/-! ### The frame's resolution -/

/-- The cases of Table 2-2 in which the cleared frame becomes RETIRED (R27). -/
theorem resolveCleared_retires (h : (s.frame f).poisoned = true ∨
    ((s.frame f).retirePending = true ∧ s.scrub.discretionary < 256)) :
    s.resolveCleared f = s.outOfService f (!(s.frame f).poisoned) := by
  rw [outOfService_eq_retireFrame]
  unfold State.resolveCleared
  dsimp only
  by_cases hp : (s.frame f).poisoned = true
  · rw [if_pos hp, hp]
    rfl
  · have sound : (s.frame f).poisoned = false := by simpa using hp
    have below : (s.frame f).retirePending = true ∧ s.scrub.discretionary < retireLimit := h.resolve_left hp
    rw [if_neg hp, if_pos below, sound]
    rfl

/-- In the other cases it becomes FREE (R27). -/
theorem resolveCleared_frees (h : ¬((s.frame f).poisoned = true ∨
    ((s.frame f).retirePending = true ∧ s.scrub.discretionary < 256))) : s.resolveCleared f = s.makeFree f := by
  obtain ⟨hp, hd⟩ := not_or.1 h
  unfold State.resolveCleared
  dsimp only
  rw [if_neg hp]
  exact if_neg hd

@[simp] theorem outOfService_retireWait (s : State) (f : FrameId) (d : Bool) :
    (s.outOfService f d).scrub.retireWait = s.scrub.retireWait := by
  simp [State.outOfService]

theorem state_outOfService (s : State) (f : FrameId) (d : Bool) : ((s.outOfService f d).frame f).state = .retired := by
  rw [outOfService_eq_retireFrame, frame_retireFrame, if_pos rfl]

theorem state_makeFree (s : State) (f : FrameId) : ((s.makeFree f).frame f).state = .free := by
  unfold State.makeFree
  rw [(calm_examineRise _).frame, frame_setFrame_same]

@[simp] theorem makeFree_scrub (s : State) (f : FrameId) : (s.makeFree f).scrub = s.scrub := by
  simp [State.makeFree, State.examineRise]

@[simp] theorem makeFree_waiters (s : State) (f : FrameId) : (s.makeFree f).waiters = s.waiters := by
  simp [State.makeFree, State.examineRise]

@[simp] theorem makeFree_freeQueue (s : State) (f : FrameId) : (s.makeFree f).freeQueue = s.freeQueue ++ [f] := by
  simp [State.makeFree, State.examineRise]

/-- No waiter is examined where the frame became RETIRED. -/
theorem resolveAndTell_retired {d : Bool} (h : s.resolveCleared f = s.outOfService f d) :
    s.resolveAndTell f = (s.outOfService f d).answerRetireWait f := by
  unfold State.resolveAndTell
  rw [h]
  refine if_neg ?_
  rw [(calm_answerRetireWait ..).frame, state_outOfService]
  nofun

/-- The waiters are examined where the frame became FREE. -/
theorem resolveAndTell_freed (h : s.resolveCleared f = s.makeFree f) :
    s.resolveAndTell f = ((s.makeFree f).answerRetireWait f).examineWaiters := by
  unfold State.resolveAndTell
  rw [h]
  refine if_pos ?_
  rw [(calm_answerRetireWait ..).frame, state_makeFree]

/-- A cleared frame made FREE joins the free queue, and the rise is examined (R27, R37, R39). -/
theorem makeFree_eq (s : State) (f : FrameId) : s.makeFree f =
    let free := s.freeQueue ++ [f]
    let risen : State := { s.setFrame f { s.frame f with state := .free, retirePending := false } with freeQueue := free }
    if s.supply = .low ∧ s.lowMark + 32 ≤ free.length then
      State.raiseBoth { risen with supply := .normal } (.frameSupply .normal free.length)
    else risen := by
  unfold State.makeFree State.examineRise State.setSupply SupplyState.afterRise State.freeCount
  simp only [setFrame_supply, setFrame_freeQueue, setFrame_lowMark]
  cases hs : s.supply with
  | normal => simp only [reduceCtorEq, false_and, if_false, if_true]; rfl
  | low =>
    by_cases hrise : s.lowMark + 32 ≤ (s.freeQueue ++ [f]).length
    · simp only [hrise, and_self, if_true, reduceCtorEq, if_false]; rfl
    · simp only [hrise, and_false, if_false, if_true]; rfl

theorem exec_clearCompletion (h : s.arbiter.current = some (.clear f)) :
    exec .clearCompletion s = .next (s.endAccess.completeClear f).finish := by
  change execClearCompletion s = _
  unfold execClearCompletion
  rw [h]

/-- Settles O50: the Clearer's turn is taken first, then the cleared frame is resolved and those who wait are told. -/
theorem clearCompletes : Obligations.ClearCompletes := by
  intro s f hcur r queue ended tell retires
  have run : exec .clearCompletion s = .next (ended.resolveAndTell f).finish :=
    (exec_clearCompletion hcur).trans
      (congrArg (fun x : State => Host.Outcome.next x.finish) (completeClear_eq_nextClear (s := s.endAccess) rfl f))
  refine ⟨fun hr => ?_, fun hr => ?_⟩
  · rw [run, resolveAndTell_retired (resolveCleared_retires (s := ended) hr),
      answerRetireWait_eq (status := .ok) (outOfService_retireWait ..) (if_pos (state_outOfService ..))]
    rfl
  · intro free risen examined
    have made : ended.makeFree f = examined := makeFree_eq ended f
    have limit : (if ((ended.makeFree f).frame f).state = .retired then Status.ok else .limit) = .limit :=
      if_neg (by rw [state_makeFree]; nofun)
    have waiters : ((ended.makeFree f).answerRetireWait f).waiters = s.waiters :=
      (answerRetireWait_waiters ..).trans (makeFree_waiters ..)
    have count : ((ended.makeFree f).answerRetireWait f).freeQueue.length = free.length :=
      congrArg List.length ((calm_answerRetireWait ..).freeQueue.trans (makeFree_freeQueue ..))
    rw [run, resolveAndTell_freed (resolveCleared_frees (s := ended) hr), examineWaiters_eq waiters count,
      answerRetireWait_eq (congrArg Scrubber.retireWait (makeFree_scrub ..)) limit, made]
    rfl

end Sys2Proof.Machine
end

section
/-! THEOREMS. MAP (R31, R36, R39, R57, R58). -/

namespace Sys2Proof.Machine

variable {s x y : State} {i : LinkId} {tag : Byte}

/-! ### Operations on frames and pages alone -/

/-- Nothing changes but the frame records and the page maps of the spaces. -/
structure State.MapsOnly (s x : State) : Prop where
  rest : x = { s with spaces := x.spaces, frames := x.frames }
  shape : ∀ tp, (x.space tp).map (fun q => (q.size, q.owner, q.guest)) =
    (s.space tp).map fun q => (q.size, q.owner, q.guest)

theorem State.MapsOnly.refl (s : State) : s.MapsOnly s := ⟨rfl, fun _ => rfl⟩

theorem State.MapsOnly.trans (h : s.MapsOnly x) (h' : x.MapsOnly y) : s.MapsOnly y where
  rest := by
    refine h'.rest.trans ?_
    rw [h.rest]
  shape tp := (h'.shape tp).trans (h.shape tp)

theorem State.MapsOnly.jobs (h : s.MapsOnly x) : x.jobs = s.jobs := by rw [h.rest]

theorem State.MapsOnly.arbiter (h : s.MapsOnly x) : x.arbiter = s.arbiter := by rw [h.rest]

theorem State.MapsOnly.link (h : s.MapsOnly x) (j : LinkId) : x.link j = s.link j := by
  rw [h.rest]
  cases j <;> rfl

theorem State.MapsOnly.live (h : s.MapsOnly x) (tp : SpaceId) : (x.space tp).isSome = (s.space tp).isSome := by
  simpa using congrArg Option.isSome (h.shape tp)

theorem mapsOnly_setFrame (s : State) (f : FrameId) (r : FrameRecord) : s.MapsOnly (s.setFrame f r) := ⟨rfl, fun _ => rfl⟩

theorem mapsOnly_setEntry (s : State) (p : BackRef) (e : Option MapEntry) : s.MapsOnly (s.setEntry p e) where
  rest := by
    unfold State.setEntry
    split <;> rfl
  shape tp := by
    rw [space_setEntry, Option.map_map]
    refine congrArg (Option.map · (s.space tp)) (funext fun q => ?_)
    dsimp only [Function.comp]
    split <;> rfl

/-! ### Pages made present -/

/-- The entry of a page just made present by MAP (R57, R58). -/
def State.freshEntry (s : State) (p : BackRef) (f : FrameId) : MapEntry :=
  { frame := f, writeProtect := false, referenced := false, modified := false, copyPending := s.privateJobFor p }

theorem mapsOnly_mapPage (s : State) (p : BackRef) (f : FrameId) : s.MapsOnly (s.mapPage p f) :=
  (mapsOnly_setFrame s f _).trans (mapsOnly_setEntry ..)

theorem frame_mapPage (s : State) (p : BackRef) (f g : FrameId) :
    (s.mapPage p f).frame g = if g = f then { s.frame f with state := .held [p] } else s.frame g := by
  unfold State.mapPage
  rw [frame_setEntry, frame_setFrame]

theorem entry_mapPage {p : BackRef} (h : (s.space p.1).isSome) (f : FrameId) (q : BackRef) :
    (s.mapPage p f).entry q = if q = p then some (s.freshEntry p f) else s.entry q := by
  unfold State.mapPage
  split
  · next hq => rw [hq]; exact entry_setEntry_same _ _ _ h
  · next hq => rw [entry_setEntry_other _ _ _ _ hq, entry_setFrame]

theorem freshEntry_mapPage (s : State) (p q : BackRef) (f g : FrameId) : (s.mapPage p f).freshEntry q g = s.freshEntry q g := by
  unfold State.freshEntry State.privateJobFor
  rw [(mapsOnly_mapPage s p f).jobs]

/-- Pages made present in order, each on its frame. -/
def State.mapPages (s : State) (pairs : List (BackRef × FrameId)) : State :=
  pairs.foldl (fun s (p, f) => s.mapPage p f) s

theorem mapPages_cons (s : State) (p : BackRef) (f : FrameId) (rest : List (BackRef × FrameId)) :
    s.mapPages ((p, f) :: rest) = (s.mapPage p f).mapPages rest := rfl

theorem mapsOnly_mapPages (s : State) (pairs : List (BackRef × FrameId)) : s.MapsOnly (s.mapPages pairs) :=
  foldl_keeps (fun x : State => s.MapsOnly x) _ pairs (fun _ _ _ hx => hx.trans (mapsOnly_mapPage ..)) s (.refl s)

/-- Each frame of the pairs is HELD with a list of its one page, and no other frame changes. -/
theorem frame_mapPages (pairs : List (BackRef × FrameId)) : ∀ s : State, (pairs.map Prod.snd).Nodup →
    (∀ p f, (p, f) ∈ pairs → (s.mapPages pairs).frame f = { s.frame f with state := .held [p] }) ∧
    ∀ g, g ∉ pairs.map Prod.snd → (s.mapPages pairs).frame g = s.frame g := by
  induction pairs with
  | nil => exact fun s _ => ⟨fun _ _ h => absurd h List.not_mem_nil, fun _ _ => rfl⟩
  | cons pair rest ih =>
    obtain ⟨p, f⟩ := pair
    intro s hnd
    obtain ⟨hf, hnd⟩ := List.nodup_cons.1 hnd
    obtain ⟨named, others⟩ := ih (s.mapPage p f) hnd
    rw [mapPages_cons]
    refine ⟨fun q g hmem => ?_, fun g hg => ?_⟩
    · rcases List.mem_cons.1 hmem with heq | hmem
      · obtain ⟨rfl, rfl⟩ := Prod.mk.inj heq
        rw [others _ hf, frame_mapPage, if_pos rfl]
      · have hne : g ≠ f := fun e => hf (List.mem_map.2 ⟨_, hmem, e⟩)
        rw [named q g hmem, frame_mapPage, if_neg hne]
    · obtain ⟨hne, hg⟩ := not_or.1 (mt List.mem_cons.2 hg)
      rw [others g hg, frame_mapPage, if_neg hne]

/-- Each page of the pairs has its frame's fresh entry, and no other entry changes. -/
theorem entry_mapPages (pairs : List (BackRef × FrameId)) : ∀ s : State, (pairs.map Prod.fst).Nodup →
    (∀ p ∈ pairs.map Prod.fst, (s.space p.1).isSome) →
    (∀ p f, (p, f) ∈ pairs → (s.mapPages pairs).entry p = some (s.freshEntry p f)) ∧
    ∀ q, q ∉ pairs.map Prod.fst → (s.mapPages pairs).entry q = s.entry q := by
  induction pairs with
  | nil => exact fun s _ _ => ⟨fun _ _ h => absurd h List.not_mem_nil, fun _ _ => rfl⟩
  | cons pair rest ih =>
    obtain ⟨p, f⟩ := pair
    intro s hnd hlive
    obtain ⟨hp, hnd⟩ := List.nodup_cons.1 hnd
    obtain ⟨live, hlive⟩ := List.forall_mem_cons.1 hlive
    obtain ⟨named, others⟩ := ih (s.mapPage p f) hnd fun q hq => by
      rw [(mapsOnly_mapPage s p f).live]; exact hlive q hq
    rw [mapPages_cons]
    refine ⟨fun q g hmem => ?_, fun q hq => ?_⟩
    · rcases List.mem_cons.1 hmem with heq | hmem
      · obtain ⟨rfl, rfl⟩ := Prod.mk.inj heq
        rw [others _ hp, entry_mapPage live, if_pos rfl]
      · rw [named q g hmem, freshEntry_mapPage]
    · obtain ⟨hne, hq⟩ := not_or.1 (mt List.mem_cons.2 hq)
      rw [others q hq, entry_mapPage live, if_neg hne]

/-- The pages and frames at one place of two lists are a pair of the zip. -/
theorem mem_zip_take {ps : List BackRef} {fs : List FrameId} {j : Nat} {p : BackRef} {f : FrameId} (hp : ps[j]? = some p)
    (hf : fs[j]? = some f) : (p, f) ∈ ps.zip (fs.take ps.length) := by
  have hj : j < ps.length := (List.getElem?_eq_some_iff.1 hp).1
  refine List.mem_of_getElem? (i := j) (List.getElem?_zip_eq_some.2 ⟨hp, ?_⟩)
  rw [List.getElem?_take_of_lt hj, hf]

/-- Pages mapped on the frames at the head of a queue, each on the frame at its place, with nothing else changed (R57). -/
theorem mapPages_zip {ps : List BackRef} {fs : List FrameId} (hps : ps.Nodup) (hfs : fs.Nodup) (hlen : ps.length ≤ fs.length)
    (hlive : ∀ p ∈ ps, (s.space p.1).isSome) :
    let x := s.mapPages (ps.zip (fs.take ps.length))
    (∀ (j : Nat) (p : BackRef) (f : FrameId), ps[j]? = some p → fs[j]? = some f →
      x.entry p = some (s.freshEntry p f) ∧ x.frame f = { s.frame f with state := .held [p] }) ∧
    (∀ p, p ∉ ps → x.entry p = s.entry p) ∧ ∀ f, f ∉ fs.take ps.length → x.frame f = s.frame f := by
  have htake : (fs.take ps.length).length = ps.length := by rw [List.length_take]; omega
  have pages : (ps.zip (fs.take ps.length)).map Prod.fst = ps := List.map_fst_zip htake.ge
  have frames : (ps.zip (fs.take ps.length)).map Prod.snd = fs.take ps.length := List.map_snd_zip htake.le
  obtain ⟨mapped, unmapped⟩ := entry_mapPages (ps.zip (fs.take ps.length)) s (by rwa [pages]) (by rwa [pages])
  obtain ⟨held, kept⟩ := frame_mapPages (ps.zip (fs.take ps.length)) s
    (by rw [frames]; exact hfs.sublist (List.take_sublist ..))
  rw [pages] at unmapped
  rw [frames] at kept
  exact ⟨fun j p f hp hf => ⟨mapped p f (mem_zip_take hp hf), held p f (mem_zip_take hp hf)⟩, unmapped, kept⟩

/-! ### The fall of the free count -/

/-- A notice raised does not read the memory side. -/
theorem raiseBoth_fields (s : State) (n : Notice) (queue : List FrameId) (st : SupplyState)
    (spaces : Vector (Option SpaceRecord) 16) (frames : Vector FrameRecord 4096) :
    State.raiseBoth { s with freeQueue := queue, supply := st, spaces := spaces, frames := frames } n =
      { s.raiseBoth n with freeQueue := queue, supply := st, spaces := spaces, frames := frames } := rfl

/-- The part after MAP's pages: the fall of the free count is examined where there is one (R57). -/
def State.afterMapped (x : State) (n : Nat) : State := if n = 0 then x else x.examineFall

theorem calm_afterMapped (x : State) (n : Nat) : x.Calm (x.afterMapped n) := by
  unfold State.afterMapped
  split
  · exact .refl x
  · exact calm_examineFall x

theorem afterMapped_arbiter (x : State) (n : Nat) : (x.afterMapped n).arbiter = x.arbiter := by
  unfold State.afterMapped
  split
  · rfl
  · exact setSupply_arbiter ..

theorem canTake_afterMapped (x : State) (n : Nat) (j : LinkId) : ((x.afterMapped n).link j).canTake = (x.link j).canTake := by
  unfold State.afterMapped
  split
  · rfl
  · exact canTake_setSupply ..

/-- Frames taken from the free queue and mapped: a fall below the low mark makes a NORMAL supply LOW and raises
FRAME_SUPPLY on both links (R36, R39). -/
theorem afterMapped_eq {queue : List FrameId} (h : State.MapsOnly { s with freeQueue := queue } x) (n : Nat) :
    x.afterMapped n =
      let low := s.supply = .normal ∧ queue.length < s.lowMark ∧ 0 < n
      { (if low then s.raiseBoth (.frameSupply .low queue.length) else s) with
        freeQueue := queue
        supply := if low then .low else s.supply
        spaces := (x.afterMapped n).spaces
        frames := (x.afterMapped n).frames } := by
  have fell : x.examineFall = x.freeFalls queue := by
    rw [freeFalls_eq_examineFall, h.rest]
  rw [(calm_afterMapped x n).spaces, (calm_afterMapped x n).frames]
  unfold State.afterMapped
  by_cases hn : n = 0
  · rw [if_pos hn]
    simp only [hn, lt_irrefl, and_false, if_false]
    exact h.rest
  · rw [if_neg hn, fell]
    unfold State.freeFalls
    rw [h.rest]
    simp only [Nat.pos_of_ne_zero hn, and_true]
    split
    · exact raiseBoth_fields ..
    · rfl

/-! ### MAP -/

theorem findRange_holds {id : Byte} {sp : SpaceId} {r : SpaceRecord} {first count : Nat} (h : s.Holds i id 2 sp r)
    (h1 : 1 ≤ count) (h2 : count ≤ 256) (h3 : first + count ≤ r.size) :
    s.findRange i id .write first count = .ok (rangePages sp first count) := by
  have hok : r.rangeOk first count = true := decide_eq_true ⟨h1, h2, h3⟩
  unfold State.findRange
  rw [findSpace_holds h]
  dsimp only
  rw [if_pos hok, pagesFrom_eq]

theorem holds_heard {id : Byte} {rank : Nat} {sp : SpaceId} {r : SpaceRecord} (h : s.Holds i id rank sp r) :
    (s.heard i).Holds i id rank sp r :=
  ⟨h.named, by rw [space_heard]; exact h.live, h.right⟩

/-- MAP of a range whose absent pages are `absent` (R31, R57). -/
theorem serveMap_range {id : Byte} {first count : Nat} {pages : List BackRef}
    (h : s.findRange i id .write first count = .ok pages) {absent : List BackRef}
    (ha : pages.filter (fun p => (s.entry p).isNone) = absent) :
    serveMap i tag id first count s =
      if s.freeQueue.length < absent.length then s.reply i .map tag (0x30 :: be16 absent.length)
      else
        let mapped := State.mapPages { s with freeQueue := s.freeQueue.drop absent.length }
          (absent.zip (s.freeQueue.take absent.length))
        (mapped.afterMapped absent.length).reply i .map tag (0x00 :: be16 absent.length) := by
  have hnone : (fun p => !s.present? p) = fun p => (s.entry p).isNone :=
    funext fun p => Option.not_isSome _
  unfold serveMap
  rw [h]
  dsimp only
  rw [hnone, ha]
  rfl

theorem exec_map (h : s.Ready i tag) (id a b c d : Byte) : exec (.map i tag [id, a, b, c, d]) s =
    .next (serveMap i tag id (nat16 a b) (nat16 c d) (s.heard i)).finish :=
  congrArg _ (Ready_immediate h .map [id, a, b, c, d] rfl rfl)

/-- The event of a MAP that maps ends with the transmitters. -/
theorem Ready_mapped (h : s.Ready i tag) {queue : List FrameId}
    (hx : State.MapsOnly { s.heard i with freeQueue := queue } x) (n : Nat) (payload : List Byte) :
    ((x.afterMapped n).reply i .map tag payload).finish = ((x.afterMapped n).answered i 0x14 tag payload).settle := by
  refine Stable_finish h.stable ?_ fun j => ?_
  · exact (reply_arbiter ..).trans ((afterMapped_arbiter ..).trans (hx.arbiter.trans (heard_arbiter ..)))
  · rw [canTake_reply, canTake_afterMapped, hx.link, ← canTake_heard s i j]
    cases j <;> rfl

/-- Settles O35: the pages and frames paired in order, and the rest of the part as the fall leaves it. -/
theorem mapAllOrNothing : Obligations.MapAllOrNothing := by
  intro s i tag id a b c d sp r h hfree hholds h1 h2 h3 absent n
  have habsent : (rangePages sp (nat16 a b) (nat16 c d)).filter (fun p => ((s.heard i).entry p).isNone) = absent := by
    simp only [entry_heard]
    rfl
  have run := exec_map h id a b c d
  rw [serveMap_range (findRange_holds (holds_heard hholds) h1 h2 h3) habsent, heard_freeQueue] at run
  refine ⟨fun hfew => ?_, fun henough => ?_⟩
  · rw [if_pos hfew] at run
    exact run.trans (congrArg _ (Ready_reply h .map _))
  · rw [if_neg (Nat.not_lt.2 henough)] at run
    let taken : State := { s.heard i with freeQueue := s.freeQueue.drop n }
    have live : ∀ p ∈ absent, (taken.space p.1).isSome := fun p hp => by
      have hp1 : p.1 = sp := ((mem_rangePages ..).1 (List.mem_of_mem_filter hp)).1
      have hspace : taken.space p.1 = some r := by rw [hp1]; exact (space_heard s i sp).trans hholds.live
      rw [hspace]
      rfl
    obtain ⟨mapped, unmapped, kept⟩ := mapPages_zip (s := taken) ((rangePages_nodup ..).filter _) hfree henough live
    have only : taken.MapsOnly (taken.mapPages (absent.zip (s.freeQueue.take n))) := mapsOnly_mapPages ..
    have calm := calm_afterMapped (taken.mapPages (absent.zip (s.freeQueue.take n))) n
    have rest := afterMapped_eq only n
    rw [heard_supply, heard_lowMark, List.length_drop] at rest
    refine ⟨_, run.trans (congrArg _ (Ready_mapped h only n _)), rest, fun j p f hp hf => ?_, fun p hp => ?_,
      fun f hf => ?_, fun tp => ?_⟩
    · obtain ⟨hentry, hframe⟩ := mapped j p f hp hf
      have fresh : taken.privateJobFor p = s.privateJobFor p := by
        unfold State.privateJobFor
        rw [heard_jobs]
      rw [calm.entry, calm.frame, hentry, hframe, State.freshEntry, fresh]
      exact ⟨rfl, by rw [← frame_heard s i f]; rfl⟩
    · exact (calm.entry p).trans ((unmapped p hp).trans (entry_heard s i p))
    · exact (calm.frame f).trans ((kept f hf).trans (frame_heard s i f))
    · rw [calm.space, only.shape, ← space_heard s i tp]
      rfl

end Sys2Proof.Machine
end

section
/-! THEOREMS. The requests for spaces (R46, R48–R56): who may make them, what each refuses, and what SPACE_CREATE,
SPACE_GRANT, SPACE_INFO and SPACE_DESTROY do. -/

namespace Sys2Proof.Machine

variable {s x : State} {i : LinkId} {tag id : Byte} {need : Need} {sp : SpaceId} {r : SpaceRecord}

/-! ### Rights (R49, Table 3-3) -/

/-- The least rank that holds what is needed: READ, WRITE or ownership. -/
def Need.rank : Need → Nat
  | .read => 1
  | .write => 2
  | .owner => 3

/-- A link holds what is needed exactly at the rank of the need. -/
theorem allows_iff (r : SpaceRecord) (i : LinkId) (need : Need) : r.allows i need = true ↔ need.rank ≤ r.rank i := by
  unfold SpaceRecord.allows SpaceRecord.rank
  by_cases hi : r.owner = i
  · cases need <;> simp [hi, Need.rank]
  · cases need <;> cases hg : r.guest <;> simp [hi, Need.rank]

/-- Only the owner has rank 3. -/
theorem owner_of_rank (h : 3 ≤ r.rank i) : r.owner = i := by
  by_contra hi
  unfold SpaceRecord.rank at h
  rw [if_neg hi] at h
  cases hg : r.guest <;> simp [hg] at h

/-! ### The checks of a space request (R50) -/

theorem space?_eq_some (h : id.toNat = sp.val + 1) : space? id = some sp := by
  have hlt := sp.isLt
  unfold space?
  rw [dif_pos (by omega)]
  exact congrArg some (Fin.ext (by dsimp only; omega))

theorem space?_eq_none (h : id = 0 ∨ 16 < id.toNat) : space? id = none := by
  refine dif_neg fun hin => ?_
  rcases h with rfl | h
  · exact absurd hin.1 (by decide)
  · omega

/-- A space id is 1 to 16, or names no space. -/
theorem space?_cases (id : Byte) : (id = 0 ∨ 16 < id.toNat) ∨
    ¬(id = 0 ∨ 16 < id.toNat) ∧ ∃ sp : SpaceId, id.toNat = sp.val + 1 := by
  by_cases h : id = 0 ∨ 16 < id.toNat
  · exact Or.inl h
  · refine Or.inr ⟨h, ?_⟩
    obtain ⟨hne, hle⟩ := not_or.1 h
    have hpos : id.toNat ≠ 0 := fun e => hne (BitVec.eq_of_toNat_eq e)
    exact ⟨⟨id.toNat - 1, by omega⟩, by dsimp only; omega⟩

/-- The record found by its id among the sixteen. -/
theorem find_space_named (h : id.toNat = sp.val + 1) :
    ((List.finRange 16).find? fun tp => tp.val + 1 = id.toNat) = some sp := by
  cases hf : (List.finRange 16).find? fun tp => decide (tp.val + 1 = id.toNat) with
  | none => exact absurd (List.find?_eq_none.1 hf sp (List.mem_finRange sp)) (by simp [h])
  | some tp =>
    have : tp.val + 1 = id.toNat := by simpa using List.find?_some hf
    exact congrArg some (Fin.ext (by omega))

theorem findSpace_of_holds (h : s.Holds i id need.rank sp r) : s.findSpace i id need = .ok (sp, r) := by
  unfold State.findSpace
  rw [space?_eq_some h.named]
  dsimp only
  rw [h.live]
  dsimp only
  rw [if_pos ((allows_iff ..).2 h.right)]

/-- The first failing check of R50 gives the status of the refusal. -/
theorem findSpace_refused {code : Byte} (h : s.spaceRefusal? i id need.rank = some code) :
    ∃ st : Status, s.findSpace i id need = .error st ∧ st.code = code := by
  unfold State.spaceRefusal? at h
  unfold State.findSpace
  rcases space?_cases id with hbad | ⟨hgood, sp, hid⟩
  · rw [if_pos hbad] at h
    rw [space?_eq_none hbad]
    exact ⟨.range, rfl, Option.some.inj h⟩
  · rw [if_neg hgood, find_space_named hid] at h
    rw [space?_eq_some hid]
    dsimp only at h ⊢
    cases hs : s.space sp with
    | none =>
      rw [hs] at h
      exact ⟨.noSuchSpace, rfl, Option.some.inj h⟩
    | some r =>
      rw [hs] at h
      dsimp only at h ⊢
      by_cases hr : r.rank i < need.rank
      · rw [if_pos hr] at h
        rw [if_neg (mt (allows_iff ..).1 (Nat.not_le.2 hr))]
        exact ⟨.access, rfl, Option.some.inj h⟩
      · rw [if_neg hr] at h
        cases h

theorem findSpace_heard (s : State) (i j : LinkId) (id : Byte) (need : Need) :
    (s.heard i).findSpace j id need = s.findSpace j id need := by
  unfold State.findSpace
  simp only [space_heard]

theorem findRange_of_holds {first count : Nat} (h : s.Holds i id need.rank sp r) (h1 : 1 ≤ count) (h2 : count ≤ 256)
    (h3 : first + count ≤ r.size) : s.findRange i id need first count = .ok (rangePages sp first count) := by
  have hok : r.rangeOk first count = true := decide_eq_true ⟨h1, h2, h3⟩
  unfold State.findRange
  rw [findSpace_of_holds h]
  dsimp only
  rw [if_pos hok, pagesFrom_eq]

theorem findRange_refused {first count : Nat} {st : Status} (h : s.findSpace i id need = .error st) :
    s.findRange i id need first count = .error st := by
  unfold State.findRange
  rw [h]

theorem findRange_outside {first count : Nat} (h : s.Holds i id need.rank sp r)
    (hout : count = 0 ∨ 256 < count ∨ r.size < first + count) : s.findRange i id need first count = .error .range := by
  have hbad : ¬r.rangeOk first count = true := fun hok => by
    have := of_decide_eq_true hok
    omega
  unfold State.findRange
  rw [findSpace_of_holds h]
  dsimp only
  rw [if_neg hbad]

theorem flag?_of_bool (b : Bool) : flag? (if b then 1 else 0) = some b := by cases b <;> rfl

theorem flag?_eq_none {b : Byte} (h : 1 < b.toNat) : flag? b = none := by
  have hne : ∀ c : Byte, c.toNat ≤ 1 → b ≠ c := by rintro c hc rfl; omega
  unfold flag?
  rw [if_neg (hne 0 (by decide)), if_neg (hne 1 (by decide))]

/-! ### What each request refuses (R50) -/

section Refused

variable {st : Status}

theorem serveSpaceDestroy_refused (h : s.findSpace i id .owner = .error st) :
    serveSpaceDestroy i tag id s = s.reply i .spaceDestroy tag [st.code, id, 0, 0] := by
  unfold serveSpaceDestroy
  rw [h]

theorem serveSpaceGrant_refused (h : s.findSpace i id .owner = .error st) (right : Byte) :
    serveSpaceGrant i tag id right s = s.reply i .spaceGrant tag [st.code, id, 0] := by
  unfold serveSpaceGrant
  rw [h]

theorem serveSpaceInfo_refused (h : s.findSpace i id .read = .error st) :
    serveSpaceInfo i tag id s = s.reply i .spaceInfo tag [st.code, id, 0, 0, 0, 0, 0, 0, 0] := by
  unfold serveSpaceInfo
  rw [h]

variable {first count : Nat}

theorem serveMap_refused (h : s.findRange i id .write first count = .error st) :
    serveMap i tag id first count s = s.reply i .map tag [st.code, 0, 0] := by
  unfold serveMap
  rw [h]

theorem serveUnmap_refused (h : s.findRange i id .write first count = .error st) :
    serveUnmap i tag id first count s = s.reply i .unmap tag [st.code, 0, 0] := by
  unfold serveUnmap
  rw [h]

theorem serveProtect_refused (h : s.findRange i id .write first count = .error st) (on : Byte) :
    serveProtect i tag id first count on s = s.reply i .protect tag [st.code, 0, 0] := by
  unfold serveProtect
  rw [h]

theorem serveUsage_refused (h : s.findRange i id .read first count = .error st) (clear : Byte) :
    serveUsage i tag id first count clear s = s.reply i .usage tag [st.code, 0, 0] := by
  unfold serveUsage
  rw [h]

/-- A setting that is no flag is out of range, whatever the range of pages (R191). -/
theorem serveProtect_badFlag (h : s.Holds i id 2 sp r) {on : Byte} (hon : 1 < on.toNat) :
    serveProtect i tag id first count on s = s.reply i .protect tag [0x17, 0, 0] := by
  by_cases hout : count = 0 ∨ 256 < count ∨ r.size < first + count
  · exact serveProtect_refused (findRange_outside (need := .write) h hout) on
  · unfold serveProtect
    rw [findRange_of_holds (need := .write) h (by omega) (by omega) (by omega), flag?_eq_none hon]
    rfl

theorem serveUsage_badFlag (h : s.Holds i id 1 sp r) {clear : Byte} (hclear : 1 < clear.toNat) :
    serveUsage i tag id first count clear s = s.reply i .usage tag [0x17, 0, 0] := by
  by_cases hout : count = 0 ∨ 256 < count ∨ r.size < first + count
  · exact serveUsage_refused (findRange_outside (need := .read) h hout) clear
  · unfold serveUsage
    rw [findRange_of_holds (need := .read) h (by omega) (by omega) (by omega), flag?_eq_none hclear]
    rfl

end Refused

/-! ### The rows of the requests -/

theorem exec_spaceCreate (h : s.Ready i tag) (a b : Byte) : exec (.spaceCreate i tag [a, b]) s =
    .next (serveSpaceCreate i tag (nat16 a b) (s.heard i)).finish :=
  congrArg _ (Ready_immediate h .spaceCreate [a, b] rfl rfl)

theorem exec_spaceDestroy (h : s.Ready i tag) (id : Byte) : exec (.spaceDestroy i tag [id]) s =
    .next (serveSpaceDestroy i tag id (s.heard i)).finish :=
  congrArg _ (Ready_immediate h .spaceDestroy [id] rfl rfl)

theorem exec_spaceGrant (h : s.Ready i tag) (id right : Byte) : exec (.spaceGrant i tag [id, right]) s =
    .next (serveSpaceGrant i tag id right (s.heard i)).finish :=
  congrArg _ (Ready_immediate h .spaceGrant [id, right] rfl rfl)

theorem exec_spaceInfo (h : s.Ready i tag) (id : Byte) : exec (.spaceInfo i tag [id]) s =
    .next (serveSpaceInfo i tag id (s.heard i)).finish :=
  congrArg _ (Ready_immediate h .spaceInfo [id] rfl rfl)

theorem exec_unmap (h : s.Ready i tag) (id a b c d : Byte) : exec (.unmap i tag [id, a, b, c, d]) s =
    .next (serveUnmap i tag id (nat16 a b) (nat16 c d) (s.heard i)).finish :=
  congrArg _ (Ready_immediate h .unmap [id, a, b, c, d] rfl rfl)

theorem exec_protect (h : s.Ready i tag) (id a b c d on : Byte) : exec (.protect i tag [id, a, b, c, d, on]) s =
    .next (serveProtect i tag id (nat16 a b) (nat16 c d) on (s.heard i)).finish :=
  congrArg _ (Ready_immediate h .protect [id, a, b, c, d, on] rfl rfl)

theorem exec_usage (h : s.Ready i tag) (id a b c d clear : Byte) : exec (.usage i tag [id, a, b, c, d, clear]) s =
    .next (serveUsage i tag id (nat16 a b) (nat16 c d) clear (s.heard i)).finish :=
  congrArg _ (Ready_immediate h .usage [id, a, b, c, d, clear] rfl rfl)

/-- A request that its serving answers with one reply and nothing else. -/
theorem Ready_answers (h : s.Ready i tag) {c : Instr} (k : RequestKind) (hc : exec c s = .next x.finish)
    {payload : List Byte} (hx : x = (s.heard i).reply i k tag payload) :
    exec c s = .next ((s.heard i).answered i k.code tag payload).settle := by
  rw [hc, hx, Ready_reply h]

/-- Settles O34: the status of the first failing check in each request's own reply. -/
theorem spaceRequestsRefused : Obligations.SpaceRequestsRefused := by
  intro s i tag id h answer
  refine ⟨fun code hcode => ?_, fun code hcode => ?_, fun code hcode a b c d => ?_, fun sp r a b c d hholds => ?_,
    fun sp r a b c d clear hholds hbad => ?_⟩
  · obtain ⟨st, hfind, rfl⟩ := findSpace_refused (need := .owner) hcode
    rw [← findSpace_heard s i] at hfind
    exact ⟨Ready_answers h .spaceDestroy (exec_spaceDestroy h id) (serveSpaceDestroy_refused hfind), fun right =>
      Ready_answers h .spaceGrant (exec_spaceGrant h id right) (serveSpaceGrant_refused hfind right)⟩
  · obtain ⟨st, hfind, rfl⟩ := findSpace_refused (need := .read) hcode
    rw [← findSpace_heard s i] at hfind
    exact ⟨Ready_answers h .spaceInfo (exec_spaceInfo h id) (serveSpaceInfo_refused hfind), fun a b c d clear =>
      Ready_answers h .usage (exec_usage h id a b c d clear) (serveUsage_refused (findRange_refused hfind) clear)⟩
  · obtain ⟨st, hfind, rfl⟩ := findSpace_refused (need := .write) hcode
    rw [← findSpace_heard s i] at hfind
    have hrange := findRange_refused (first := nat16 a b) (count := nat16 c d) hfind
    exact ⟨Ready_answers h .map (exec_map h id a b c d) (serveMap_refused hrange),
      Ready_answers h .unmap (exec_unmap h id a b c d) (serveUnmap_refused hrange), fun on =>
      Ready_answers h .protect (exec_protect h id a b c d on) (serveProtect_refused hrange on)⟩
  · intro first count
    refine ⟨fun hout => ?_, fun on hon =>
      Ready_answers h .protect (exec_protect h id a b c d on) (serveProtect_badFlag (holds_heard hholds) hon)⟩
    have hrange := findRange_outside (need := .write) (holds_heard hholds) hout
    exact ⟨Ready_answers h .map (exec_map h id a b c d) (serveMap_refused hrange),
      Ready_answers h .unmap (exec_unmap h id a b c d) (serveUnmap_refused hrange), fun on =>
      Ready_answers h .protect (exec_protect h id a b c d on) (serveProtect_refused hrange on)⟩
  · refine Ready_answers h .usage (exec_usage h id a b c d clear) ?_
    by_cases hclear : 1 < clear.toNat
    · exact serveUsage_badFlag (holds_heard hholds) hclear
    · exact serveUsage_refused (findRange_outside (need := .read) (holds_heard hholds) (by omega)) clear

/-! ### SPACE_CREATE (R51) -/

@[simp] theorem canTake_setSpace (s : State) (sp : SpaceId) (r : Option SpaceRecord) (j : LinkId) :
    ((s.setSpace sp r).link j).canTake = (s.link j).canTake := by rw [link_setSpace]

theorem absentSpace_eq_none (h : ∀ sp, s.space sp ≠ none) : s.absentSpace = none :=
  List.find?_eq_none.2 fun sp _ => by simpa using h sp

theorem absentSpace_eq_some (h : s.space sp = none) (hfirst : ∀ tp : SpaceId, tp < sp → s.space tp ≠ none) :
    s.absentSpace = some sp := by
  unfold State.absentSpace
  cases hf : (List.finRange 16).find? fun tp => (s.space tp).isNone with
  | none => exact absurd (List.find?_eq_none.1 hf sp (List.mem_finRange sp)) (by simp [h])
  | some tp =>
    have habsent : s.space tp = none := by simpa using List.find?_some hf
    have hle : tp ≤ sp := by
      obtain ⟨_, before, after, hsplit, hlive⟩ := List.find?_eq_some_iff_append.1 hf
      have hsorted : (List.finRange 16).Pairwise (· < ·) := List.pairwise_lt_finRange 16
      rw [hsplit] at hsorted
      have hmem : sp ∈ before ++ tp :: after := hsplit ▸ List.mem_finRange sp
      rcases List.mem_append.1 hmem with hb | ha
      · exact absurd (hlive sp hb) (by simp [h])
      · rcases List.mem_cons.1 ha with rfl | ha
        · exact le_rfl
        · exact le_of_lt (List.rel_of_pairwise_cons (List.pairwise_append.1 hsorted).2.1 ha)
    rcases hle.lt_or_eq with hlt | heq
    · exact absurd habsent (hfirst tp hlt)
    · rw [heq]

/-- Settles O31: the size, then the lowest ABSENT space, if there is one. -/
theorem spaceCreateTakesLowest : Obligations.SpaceCreateTakesLowest := by
  intro s i tag high low h size
  have run := exec_spaceCreate h high low
  refine ⟨fun hsize => Ready_answers h .spaceCreate run (if_pos hsize), fun h1 h2 hlive => ?_,
    fun sp h1 h2 habsent hfirst => ?_⟩
  · have hsize : ¬(nat16 high low = 0 ∨ 256 < nat16 high low) := by unfold nat16; omega
    have none_absent : (s.heard i).absentSpace = none := absentSpace_eq_none fun tp => by rw [space_heard]; exact hlive tp
    refine Ready_answers h .spaceCreate run ((if_neg hsize).trans ?_)
    rw [none_absent]
    rfl
  · have hsize : ¬(nat16 high low = 0 ∨ 256 < nat16 high low) := by unfold nat16; omega
    have lowest : (s.heard i).absentSpace = some sp :=
      absentSpace_eq_some (by rw [space_heard]; exact habsent) fun tp ht => by rw [space_heard]; exact hfirst tp ht
    have serve : serveSpaceCreate i tag (nat16 high low) (s.heard i) =
        ((s.heard i).setSpace sp
          (some { size := size, owner := i, guest := .none, pages := Vector.replicate 256 none })).reply i .spaceCreate
          tag [0x00, BitVec.ofNat 8 (sp.val + 1), high, low] := by
      refine (if_neg hsize).trans ?_
      rw [lowest, be16_nat16]
      rfl
    rw [run, serve]
    refine congrArg _ (Stable_finish h.stable ?_ fun j => ?_)
    · rw [reply_arbiter, setSpace_arbiter, heard_arbiter]
    · rw [canTake_reply, canTake_setSpace, canTake_heard]

/-! ### SPACE_GRANT (R55) -/

/-- The guest link told of a change to its right over a space, if there is one. -/
def State.tellGuest (s : State) (i : LinkId) (sp : SpaceId) (same : Prop) [Decidable same] : State :=
  if same then s else s.raiseOn i.other (.spaceChanged (spaceSet sp))

theorem tellGuest_arbiter (s : State) (i : LinkId) (sp : SpaceId) (same : Prop) [Decidable same] :
    (s.tellGuest i sp same).arbiter = s.arbiter := by
  unfold State.tellGuest
  split
  · rfl
  · exact raiseOn_arbiter ..

theorem canTake_tellGuest (s : State) (i : LinkId) (sp : SpaceId) (same : Prop) [Decidable same] (j : LinkId) :
    ((s.tellGuest i sp same).link j).canTake = (s.link j).canTake := by
  unfold State.tellGuest
  split
  · rfl
  · exact canTake_raiseOn ..

theorem right?_code (g : Right) : right? g.code = some g := by cases g <;> rfl

theorem right?_eq_none {b : Byte} (h : 2 < b.toNat) : right? b = none := by
  have hne : ∀ c : Byte, c.toNat ≤ 2 → b ≠ c := by rintro c hc rfl; omega
  unfold right?
  rw [if_neg (hne 0 (by decide)), if_neg (hne 1 (by decide)), if_neg (hne 2 (by decide))]

theorem serveSpaceGrant_right (h : s.Holds i id 3 sp r) (g : Right) : serveSpaceGrant i tag id g.code s =
    ((s.setSpace sp (some { r with guest := g })).tellGuest i sp (g = r.guest)).reply i .spaceGrant tag
      [0x00, id, g.code] := by
  unfold serveSpaceGrant State.tellGuest
  rw [findSpace_of_holds (need := .owner) h]
  dsimp only
  rw [right?_code, owner_of_rank h.right]
  rfl

theorem serveSpaceGrant_badRight (h : s.Holds i id 3 sp r) {right : Byte} (hr : 2 < right.toNat) :
    serveSpaceGrant i tag id right s = s.reply i .spaceGrant tag [0x17, id, 0] := by
  unfold serveSpaceGrant
  rw [findSpace_of_holds (need := .owner) h]
  dsimp only
  rw [right?_eq_none hr]
  rfl

/-! ### SPACE_INFO (R46, R48, R56) -/

theorem finRange_countP_get {α : Type} {n : Nat} (v : Vector α n) (q : α → Bool) :
    (List.finRange n).countP (fun k => q (v.get k)) = v.toList.countP q := by
  have hv : v.toList = (List.finRange n).map v.get := by
    refine List.ext_getElem (by simp) fun k h1 h2 => ?_
    simp [Vector.get_eq_getElem]
  rw [hv, List.countP_map]
  rfl

theorem presentCount_eq (h : s.space sp = some r) :
    r.presentCount = (List.finRange 256).countP fun p => (s.entry (sp, p)).isSome := by
  have hentry : ∀ p, s.entry (sp, p) = r.pages.get p := fun p => by
    unfold State.entry
    rw [h]
    rfl
  simp only [hentry]
  exact (finRange_countP_get r.pages Option.isSome).symm

/-- The open transfers of a space are those of Link 0's slots and of Link 1's (R48). -/
theorem openCount_eq (s : State) (sp : SpaceId) : s.openCount sp =
    ((List.finRange 4).countP fun k => (s.slot (.link0, k)).counts sp) +
      (List.finRange 4).countP fun k => (s.slot (.link1, k)).counts sp := by
  unfold State.openCount slotRefs
  rw [List.flatMap_cons, List.flatMap_singleton, List.countP_append, List.countP_map, List.countP_map]
  rfl

theorem openCount_heard (s : State) (i : LinkId) (sp : SpaceId) : (s.heard i).openCount sp = s.openCount sp := by
  unfold State.openCount
  simp only [slot_heard]

theorem serveSpaceInfo_holds (h : s.Holds i id 1 sp r) : serveSpaceInfo i tag id s =
    s.reply i .spaceInfo tag
      ([0x00, id] ++ be16 r.size ++ [ownerCode r.owner, r.guest.code] ++ be16 r.presentCount ++ [u8 (s.openCount sp)]) := by
  unfold serveSpaceInfo
  rw [findSpace_of_holds (need := .read) h]
  rfl

theorem ownerCode_eq (j : LinkId) : ownerCode j = if j = .link0 then 0 else 1 := by cases j <;> rfl

/-- Settles O32: the guest right set and told, and the report counted. -/
theorem spaceGrantAndInfo : Obligations.SpaceGrantAndInfo := by
  refine ⟨fun s i tag id right sp r h hholds => ⟨fun g hright => ?_, fun hright => ?_⟩, fun s i tag id sp r h hholds => ?_⟩
  · intro granted
    obtain rfl : right = g.code := hright.trans (by cases g <;> rfl)
    rw [exec_spaceGrant h, serveSpaceGrant_right (holds_heard hholds) g]
    refine congrArg _ (Stable_finish h.stable ?_ fun j => ?_)
    · rw [reply_arbiter, tellGuest_arbiter, setSpace_arbiter, heard_arbiter]
    · rw [canTake_reply, canTake_tellGuest, canTake_setSpace, canTake_heard]
  · exact Ready_answers h .spaceGrant (exec_spaceGrant h id right) (serveSpaceGrant_badRight (holds_heard hholds) hright)
  · intro counts
    have counted : counts .link0 + counts .link1 = s.openCount sp := by
      have hcounts : ∀ j, counts j = (List.finRange 4).countP fun k => (s.slot (j, k)).counts sp := fun j =>
        congrArg (fun q => (List.finRange 4).countP q) (funext fun k => by cases s.slot (j, k) <;> rfl)
      rw [hcounts, hcounts, openCount_eq]
    rw [Ready_answers h .spaceInfo (exec_spaceInfo h id) (serveSpaceInfo_holds (holds_heard hholds)), openCount_heard,
      presentCount_eq hholds.live, counted, ownerCode_eq]
    rfl

/-! ### A slot answered, and a slot halted by another block (R159, R162, R170) -/

theorem setSlot_setSlot (s : State) (k : SlotRef) (a b : Slot) : (s.setSlot k a).setSlot k b = s.setSlot k b := by
  unfold State.setSlot
  rw [onLink_onLink]
  refine onLink_congr _ _ _ _ ?_
  rw [Vector.set_set]

/-- The idle timer of an answered SEG, as the manual says it (R170, R171). -/
theorem startedTimer_eq_freshTimer (l : Link) : l.startedTimer = l.freshTimer := by
  unfold Link.startedTimer Link.freshTimer
  cases l.state <;> rfl

theorem freshTimer_setSlot (s : State) (k : SlotRef) (slot : Slot) (j : LinkId) :
    ((s.setSlot k slot).link j).freshTimer = (s.link j).freshTimer := by
  unfold State.setSlot
  rw [link_onLink]
  split <;> rfl

/-- A slot set to an open transfer and its SEG answered: the transfer with its timer started, and the reply. -/
theorem segReply_setSlot (s : State) (k : SlotRef) (t : Transfer) (tag : Byte) (status : Status) (data : List Byte) :
    (s.setSlot k (.active t)).segReply k tag status data = s.segAnswered k.1 tag k.2 t status.code data := by
  unfold State.segReply
  rw [slot_setSlot_same]
  dsimp only
  rw [setSlot_setSlot, startedTimer_eq_freshTimer, freshTimer_setSlot]
  rfl

/-- A slot set commutes with the end of the link's SEG in processing. -/
theorem setSlot_dropSegment (s : State) (k : SlotRef) (slot : Slot) :
    ((s.setSlot k slot).withdraw (.dataPath k.1)).onLink k.1 (fun l => { l with segment := none }) =
      ((s.withdraw (.dataPath k.1)).onLink k.1 fun l => { l with segment := none }).setSlot k slot := by
  obtain ⟨j, k⟩ := k
  cases j <;> rfl

theorem segment_setSlot (s : State) (k : SlotRef) (slot : Slot) (j : LinkId) :
    ((s.setSlot k slot).link j).segment = (s.link j).segment := by
  unfold State.setSlot
  rw [link_onLink]
  split <;> rfl

/-- An open slot halted while no SEG of its own waits for the store (R162). -/
theorem haltSlot_active {k : SlotRef} {t : Transfer} (ht : s.slot k = .active t) (cause : HaltCause)
    (hseg : ∀ g, (s.link k.1).segment = some g → g.slot ≠ k.2) :
    s.haltSlot k cause = s.setSlot k (.active (t.halt cause)) := by
  unfold State.haltSlot
  rw [ht]
  dsimp only
  unfold State.withdrawSegment
  rw [segment_setSlot]
  cases hg : (s.link k.1).segment with
  | none => rfl
  | some g => exact if_neg (hseg g hg)

/-- An open slot halted while its SEG waits for the store: the access is withdrawn and the SEG answered (R159, R162). -/
theorem haltSlot_waiting {k : SlotRef} {t : Transfer} (ht : s.slot k = .active t) (cause : HaltCause) {g : Segment}
    (hg : (s.link k.1).segment = some g) (hslot : g.slot = k.2) :
    s.haltSlot k cause =
      ((s.withdraw (.dataPath k.1)).onLink k.1 fun l => { l with segment := none }).segAnswered k.1 g.tag k.2
        (t.halt cause) cause.code [] := by
  unfold State.haltSlot
  rw [ht]
  dsimp only
  unfold State.withdrawSegment
  rw [segment_setSlot, hg]
  refine (if_pos hslot).trans ?_
  rw [setSlot_dropSegment, segReply_setSlot]
  rfl

/-! ### SPACE_DESTROY (R52–R54) -/

/-- The pages of a whole space are all its pages in ascending order. -/
theorem rangePages_whole (sp : SpaceId) : rangePages sp 0 256 = (List.finRange 256).map fun p => (sp, p) := by
  unfold rangePages
  rw [List.filter_eq_self.2 fun p _ => decide_eq_true ⟨Nat.zero_le _, by have := p.isLt; omega⟩]

/-- Every slot that counts a space dealt with, Link 0's slots first (R52). -/
def State.slotsSpaceGone (s : State) (sp : SpaceId) : State := slotRefs.foldl (fun s k => s.slotSpaceGone sp k) s

theorem calm_slotsSpaceGone (s : State) (sp : SpaceId) : s.Calm (s.slotsSpaceGone sp) :=
  calm_foldl _ _ _ fun x k => calm_slotSpaceGone x sp k

theorem presentPages_eq (h : s.Calm x) (sp : SpaceId) :
    x.presentPages sp = (rangePages sp 0 256).filter fun p => (s.entry p).isSome := by
  unfold State.presentPages
  rw [rangePages_whole]
  exact congrArg (fun q => List.filter q _) (funext fun p => congrArg Option.isSome (h.entry p))

/-- SPACE_DESTROY by the owner of the space. -/
theorem serveSpaceDestroy_holds (h : s.Holds i id 3 sp r) : serveSpaceDestroy i tag id s =
    let halted := s.slotsSpaceGone sp
    let pages := (rangePages sp 0 256).filter fun p => (s.entry p).isSome
    (((halted.detachAll pages).1.setSpace sp none).tellGuest i sp (r.guest = .none)).reply i .spaceDestroy tag
      ([0x00, id] ++ be16 (halted.detachAll pages).2) := by
  unfold serveSpaceDestroy
  rw [findSpace_of_holds (need := .owner) h, ← presentPages_eq (calm_slotsSpaceGone s sp) sp]
  dsimp only
  rw [owner_of_rank h.right]
  rfl

/-- A slot that does not count the space is left alone (R52). -/
theorem slotSpaceGone_uncounted {k : SlotRef} (h : (s.slot k).counts sp = false) : s.slotSpaceGone sp k = s := by
  unfold State.slotSpaceGone
  cases ht : s.slot k with
  | idle last => rfl
  | active t =>
    rw [ht] at h
    exact if_neg (by rw [show (t.counted && decide (t.space = sp)) = false from h]; decide)

/-- A slot already HALTED only stops counting the space (R52). -/
theorem slotSpaceGone_halted {k : SlotRef} {t : Transfer} (ht : s.slot k = .active t) (hc : (Slot.active t).counts sp = true)
    {cause : HaltCause} (hp : t.phase = .halted cause) :
    s.slotSpaceGone sp k = s.setSlot k (.active { t with counted := false }) := by
  unfold State.slotSpaceGone
  rw [ht]
  refine (if_pos hc).trans ?_
  rw [hp]

/-- A slot in DATA or FINAL stops counting the space and halts with SPACE_GONE (R52). -/
theorem slotSpaceGone_open {k : SlotRef} {t : Transfer} (ht : s.slot k = .active t) (hc : (Slot.active t).counts sp = true)
    (hp : ∀ cause, t.phase ≠ .halted cause) :
    s.slotSpaceGone sp k = (s.setSlot k (.active { t with counted := false })).haltSlot k .spaceGone := by
  unfold State.slotSpaceGone
  rw [ht]
  refine (if_pos hc).trans ?_
  cases hphase : t.phase with
  | halted cause => exact absurd hphase (hp cause)
  | data => rfl
  | final => rfl

theorem counts_active (t : Transfer) (sp : SpaceId) :
    (Slot.active t).counts sp = true ↔ t.counted = true ∧ t.space = sp := by
  simp [Slot.counts]

/-- Settles O33: the slots, the detaches, the space and the notice in order, and the cases of one slot. -/
theorem spaceDestroyEndsSpace : Obligations.SpaceDestroyEndsSpace := by
  refine ⟨fun s i tag id sp r h hholds => ?_, fun s sp k => ⟨fun last hidle => ?_, fun t ht => ⟨fun hno => ?_,
    fun hc hsp hhalted => ?_, fun hc hsp hopen => ?_⟩⟩⟩
  · intro halted pages absent
    have present : (rangePages sp 0 256).filter (fun p => ((s.heard i).entry p).isSome) = pages := by
      simp only [entry_heard]
      rfl
    rw [exec_spaceDestroy h, serveSpaceDestroy_holds (holds_heard hholds), present]
    rfl
  · exact slotSpaceGone_uncounted (by rw [hidle]; rfl)
  · exact slotSpaceGone_uncounted (by rw [ht, Bool.eq_false_iff]; exact mt (counts_active t sp).1 hno)
  · exact slotSpaceGone_halted ht ((counts_active t sp).2 ⟨hc, hsp⟩) hhalted.choose_spec
  · rw [slotSpaceGone_open ht ((counts_active t sp).2 ⟨hc, hsp⟩) hopen]
    intro gone
    refine ⟨fun hseg => ?_, fun g hg hslot => ?_⟩
    · rw [haltSlot_active (slot_setSlot_same ..) .spaceGone (by rw [segment_setSlot]; exact hseg), setSlot_setSlot]
      rfl
    · rw [haltSlot_waiting (slot_setSlot_same ..) .spaceGone (by rw [segment_setSlot]; exact hg) hslot,
        setSlot_dropSegment]
      unfold State.segAnswered
      rw [setSlot_setSlot, freshTimer_setSlot]
      rfl

end Sys2Proof.Machine
end

section
/-! THEOREMS. Translation of a page and of a segment (R64, R65, Table 3-4). -/

namespace Sys2Proof.Machine

variable {s : State} {d : Direction} {p : BackRef} {e : MapEntry} {sp : SpaceId}

/-! ### One page -/

theorem translatePage_absent (h : s.entry p = none) : s.translatePage d p = .halt .notMapped := by
  unfold State.translatePage
  rw [h]

/-- A present page is read from its frame, unless that is poisoned. -/
theorem translatePage_read (h : s.entry p = some e) : s.translatePage .read p =
    if (s.frame e.frame).poisoned then .halt .dataLost else .moveOk e.frame := by
  unfold State.translatePage
  rw [h]
  rfl

/-- The checks of a write to a present page, in the order of Table 3-4. -/
theorem translatePage_write (h : s.entry p = some e) : s.translatePage .write p =
    if e.writeProtect then .halt .writeProtected
    else if (s.frame e.frame).poisoned then .halt .dataLost
    else if (s.frame e.frame).moving then .waitMove e.frame
    else if e.copyPending then .waitCopy
    else if 1 < (s.frame e.frame).state.refs.length then .needsCopy e
    else .moveOk e.frame := by
  unfold State.translatePage
  rw [h]
  simp only [true_and, reduceCtorEq, if_false]
  rfl

/-! ### The pages of a segment -/

theorem page?_val (page : PageId) : page? page.val = some page := dif_pos page.isLt

/-- A page that does not answer MOVE-OK decides (R65). -/
theorem translate_stop {page : PageId} {why : PageAnswer} (h : s.translatePage d (sp, page) = why)
    (hno : ∀ f, why ≠ .moveOk f) (offset count : Nat) (rest : List (Nat × Nat × Nat)) :
    s.translate d sp ((page.val, offset, count) :: rest) = .stop (sp, page) why := by
  unfold State.translate
  rw [page?_val]
  dsimp only
  rw [h]
  cases why with
  | moveOk f => exact absurd rfl (hno f)
  | halt cause => rfl
  | waitMove f => rfl
  | waitCopy => rfl
  | needsCopy e => rfl

/-- What is found of a segment whose first page answered MOVE-OK, by what is found of its other pages (Table 3-5). -/
def Translation.extend (part : Part) (page : BackRef) : Translation → Translation
  | .moveOk parts pages => .moveOk (part :: parts) (page :: pages)
  | .stop q why => .stop q why

/-- A page that answers MOVE-OK leaves the decision to the pages after it (R65). -/
theorem translate_go {page : PageId} {f : FrameId} (h : s.translatePage d (sp, page) = .moveOk f)
    (offset count : Nat) (rest : List (Nat × Nat × Nat)) :
    s.translate d sp ((page.val, offset, count) :: rest) =
      (s.translate d sp rest).extend { frame := f, offset, count } (sp, page) := by
  rw [State.translate, page?_val]
  dsimp only
  rw [h]
  dsimp only
  cases s.translate d sp rest <;> rfl

/-- A segment within one page touches that page (R64). -/
theorem pagesTouched_one {a n : Nat} (h : a % 512 + n ≤ 512) : pagesTouched a n = [(a / 512, a % 512, n)] := if_pos h

/-- A segment beyond the end of its page goes on at the start of the next (R64). -/
theorem pagesTouched_two {a n : Nat} (h : 512 < a % 512 + n) : pagesTouched a n =
    [(a / 512, a % 512, 512 - a % 512), (a / 512 + 1, 0, a % 512 + n - 512)] := if_neg (Nat.not_le.2 h)

/-- The first page touched is that of the segment's first byte (R64). -/
theorem pagesTouched_cons (a n : Nat) : ∃ count rest, pagesTouched a n = (a / 512, a % 512, count) :: rest := by
  rcases Nat.lt_or_ge 512 (a % 512 + n) with h | h
  · exact ⟨_, _, pagesTouched_two h⟩
  · exact ⟨_, _, pagesTouched_one h⟩

/-- Settles O45: Table 3-4 row by row, and a segment of one page or of two. -/
theorem translationDecides : Obligations.TranslationDecides := by
  refine ⟨fun s d p h => translatePage_absent h, fun s p e h => ?_, fun s d sp a n page hpage => ?_⟩
  · intro r
    rw [translatePage_read h, translatePage_write h]
    refine ⟨fun hp => if_pos hp, fun hp => ?_, fun hw => if_pos hw, fun hw hp => ?_, fun hw hp => ⟨fun hm => ?_,
      fun hm hc => ?_, fun hm hc hs => ?_, fun hm hc hs => ?_⟩⟩
    · simp only [r, hp, Bool.false_eq_true, if_false]
    · simp only [r, hw, hp, Bool.false_eq_true, if_false, if_true]
    · simp only [r, hw, hp, hm, Bool.false_eq_true, if_false, if_true]
    · simp only [r, hw, hp, hm, hc, Bool.false_eq_true, if_false, if_true]
    · simp only [r, hw, hp, hm, hc, hs, Bool.false_eq_true, if_false, if_true]
    · simp only [r, hw, hp, hm, hc, Nat.not_lt.2 hs, Bool.false_eq_true, if_false]
  · intro o found
    refine ⟨fun why hwhy hno => ?_, fun f hf => ⟨fun hone => ?_, fun next hnext htwo => ?_⟩⟩
    · obtain ⟨count, rest, htouched⟩ := pagesTouched_cons a n
      simp only [found, htouched, ← hpage]
      exact translate_stop hwhy hno ..
    · simp only [found, pagesTouched_one hone, ← hpage]
      exact translate_go hf ..
    · have first : found = (s.translate d sp [(next.val, 0, o + n - 512)]).extend
          { frame := f, offset := o, count := 512 - o } (sp, page) := by
        simp only [found, pagesTouched_two htwo, ← hpage, ← hnext]
        exact translate_go hf ..
      refine ⟨fun why hwhy hno => ?_, fun f' hf' => ?_⟩
      · rw [first, translate_stop hwhy hno]
        rfl
      · rw [first, translate_go hf']
        rfl

end Sys2Proof.Machine
end

section
/-! THEOREMS. PROTECT and USAGE (R61–R63, R190), and the change of the entries of some pages that they, a segment's marks
and a MOVE share. -/

namespace Sys2Proof.Machine

variable {s x : State} {i : LinkId} {tag id : Byte} {sp : SpaceId} {r : SpaceRecord}

/-! ### The entries of some pages changed -/

/-- The present pages of a list have their entries changed, and nothing else changes. -/
structure State.EntriesChanged (s : State) (pages : List BackRef) (change : MapEntry → MapEntry) (x : State) : Prop where
  only : s.MapsOnly x
  frames : x.frames = s.frames
  entry : ∀ p, x.entry p = if p ∈ pages then (s.entry p).map change else s.entry p

theorem State.EntriesChanged.rest {pages : List BackRef} {change : MapEntry → MapEntry}
    (h : s.EntriesChanged pages change x) : x = { s with spaces := x.spaces } :=
  h.only.rest.trans (by rw [h.frames])

theorem mapsOnly_changeEntry (change : MapEntry → MapEntry) (s : State) (p : BackRef) :
    s.MapsOnly (State.changeEntry change s p) := by
  unfold State.changeEntry
  split
  · exact .refl s
  · exact mapsOnly_setEntry ..

theorem frames_changeEntry (change : MapEntry → MapEntry) (s : State) (p : BackRef) :
    (State.changeEntry change s p).frames = s.frames := by
  unfold State.changeEntry
  split
  · rfl
  · exact setEntry_frames ..

theorem entry_changeEntry (change : MapEntry → MapEntry) (s : State) (p q : BackRef) :
    (State.changeEntry change s p).entry q = if q = p then (s.entry p).map change else s.entry q := by
  unfold State.changeEntry
  cases he : s.entry p with
  | none =>
    dsimp only
    split
    · next hq => rw [hq, he]; rfl
    · rfl
  | some e => exact entry_setEntry_of_some he _ q

/-- The entries of a list of pages changed one after another, by a change that acts once however often it is made. -/
theorem entriesChanged_foldl {change : MapEntry → MapEntry} (once : ∀ e, change (change e) = change e)
    (pages : List BackRef) : ∀ s : State, s.EntriesChanged pages change (pages.foldl (State.changeEntry change) s) := by
  induction pages with
  | nil => exact fun s => ⟨.refl s, rfl, fun p => (if_neg List.not_mem_nil).symm⟩
  | cons p rest ih =>
    intro s
    obtain ⟨only, frames, entry⟩ := ih (State.changeEntry change s p)
    refine ⟨(mapsOnly_changeEntry change s p).trans only, frames.trans (frames_changeEntry ..), fun q => ?_⟩
    have twice : ((s.entry q).map change).map change = (s.entry q).map change := by
      rw [Option.map_map]
      exact congrArg (Option.map · (s.entry q)) (funext once)
    rw [List.foldl_cons, entry, entry_changeEntry]
    by_cases hq : q = p
    · subst hq
      simp only [if_true, List.mem_cons_self, twice, ite_self]
    · simp only [hq, if_false, List.mem_cons, false_or]

/-! ### PROTECT and USAGE -/

/-- The number of present pages whose write-protect is not the setting (R61). -/
theorem unprotected_length (s : State) (pages : List BackRef) (on : Bool) :
    (pages.filter fun p => match s.entry p with
      | some e => e.writeProtect != on
      | none => false).length = pages.countP fun p => (s.entry p).elim false fun e => e.writeProtect != on := by
  rw [← List.countP_eq_length_filter]
  exact congrArg (List.countP · pages) (funext fun p => by cases s.entry p <;> rfl)

theorem marked_eq (s : State) (which : MapEntry → Bool) : s.marked which = fun p => (s.entry p).elim false which :=
  funext fun p => by
    unfold State.marked
    cases s.entry p <;> rfl

theorem serveProtect_range {first count : Nat} {pages : List BackRef}
    (h : s.findRange i id .write first count = .ok pages) (on : Bool) :
    serveProtect i tag id first count (if on then 1 else 0) s =
      (pages.foldl (State.changeEntry fun e => { e with writeProtect := on }) s).reply i .protect tag
        (0x00 :: be16 (pages.countP fun p => (s.entry p).elim false fun e => e.writeProtect != on)) := by
  unfold serveProtect
  rw [h]
  dsimp only
  rw [flag?_of_bool]
  dsimp only
  rw [← unprotected_length]
  rfl

/-- The flags that USAGE clears, if asked (R63). -/
def MapEntry.cleared (wipe : Bool) (e : MapEntry) : MapEntry :=
  if wipe then { e with referenced := false, modified := false } else e

theorem cleared_cleared (wipe : Bool) (e : MapEntry) : (e.cleared wipe).cleared wipe = e.cleared wipe := by
  cases wipe <;> rfl

/-- A USAGE that clears nothing leaves every entry (R63). -/
theorem entriesChanged_cleared (wipe : Bool) (pages : List BackRef) (s : State) : s.EntriesChanged pages (MapEntry.cleared wipe)
    (if wipe then pages.foldl (State.changeEntry fun e => { e with referenced := false, modified := false }) s else s) := by
  cases wipe with
  | true => exact entriesChanged_foldl (cleared_cleared true) pages s
  | false => exact ⟨.refl s, rfl, fun p => by
      have keep : MapEntry.cleared false = id := rfl
      rw [keep, Option.map_id, id_eq, ite_self]; rfl⟩

theorem serveUsage_range {first count : Nat} {pages : List BackRef}
    (h : s.findRange i id .read first count = .ok pages) (wipe : Bool) :
    let marks := fun which : MapEntry → Bool => markBytes (pages.map fun p => (s.entry p).elim false which)
    serveUsage i tag id first count (if wipe then 1 else 0) s =
      (if wipe then pages.foldl (State.changeEntry fun e => { e with referenced := false, modified := false }) s
        else s).reply i .usage tag
        (0x00 :: (be16 count ++ marks MapEntry.referenced ++ marks MapEntry.modified)) := by
  unfold serveUsage
  rw [h]
  dsimp only
  rw [flag?_of_bool]
  dsimp only
  rw [marked_eq, marked_eq]
  rfl

/-- A request that changes entries alone ends with the transmitters. -/
theorem Ready_changed (h : s.Ready i tag) {pages : List BackRef} {change : MapEntry → MapEntry}
    (hx : (s.heard i).EntriesChanged pages change x) (k : RequestKind) (payload : List Byte) :
    (x.reply i k tag payload).finish = (x.answered i k.code tag payload).settle := by
  refine Stable_finish h.stable ?_ fun j => ?_
  · rw [reply_arbiter, hx.only.arbiter, heard_arbiter]
  · rw [canTake_reply, hx.only.link, canTake_heard]

/-- Settles O37: the range's entries changed, its marks and flags counted as they stood. -/
theorem protectAndUsage : Obligations.ProtectAndUsage := by
  intro s i tag id a b c d sp r on h h1 h2 h3 pages marks changed
  have toChanged : ∀ {x change}, (s.heard i).EntriesChanged pages change x → changed x change := fun {x change} hx =>
    ⟨hx.rest, fun p => by rw [hx.entry p, entry_heard], fun tp => by rw [hx.only.shape tp, space_heard]⟩
  refine ⟨fun hholds => ?_, fun hholds => ?_⟩
  · have hx := entriesChanged_foldl (change := fun e => { e with writeProtect := on }) (fun _ => rfl) pages (s.heard i)
    refine ⟨_, toChanged hx, ?_⟩
    rw [exec_protect h, serveProtect_range (findRange_of_holds (need := .write) (holds_heard hholds) h1 h2 h3),
      Ready_changed h hx .protect]
    simp only [entry_heard]
    rfl
  · have hx := entriesChanged_cleared on pages (s.heard i)
    refine ⟨_, toChanged hx, ?_⟩
    rw [exec_usage h, serveUsage_range (findRange_of_holds (need := .read) (holds_heard hholds) h1 h2 h3),
      Ready_changed h hx .usage]
    simp only [entry_heard]
    rfl

end Sys2Proof.Machine
end

section
/-! THEOREMS. What a MOVE carries from its source to its target (R47, R87). -/

namespace Sys2Proof.Machine

variable {s : State} {j : CopyJob} {refs : List BackRef}

theorem retarget_eq_changeEntry (s : State) (f : FrameId) (p : BackRef) :
    s.retarget f p = State.changeEntry (fun e => { e with frame := f }) s p := by
  unfold State.retarget State.changeEntry
  cases s.entry p <;> rfl

/-- The source's entries made to name the target, nothing else changing (R87). -/
theorem entriesChanged_retargets (s : State) (f : FrameId) (ps : List BackRef) :
    s.EntriesChanged ps (fun e => { e with frame := f }) (ps.foldl (fun x p => x.retarget f p) s) := by
  have h : (fun (x : State) p => x.retarget f p) = State.changeEntry fun e => { e with frame := f } :=
    funext fun x => funext fun p => retarget_eq_changeEntry x f p
  rw [h]
  exact entriesChanged_foldl (change := fun e => { e with frame := f }) (fun _ => rfl) ps s

/-- A MOVE with nothing to carry releases its target and leaves its source as it is (R87). -/
theorem carry_empty (h : (s.frame j.source).state = .held []) (hne : j.source ≠ j.target) :
    s.carry j = (s.release j.target).setFrame j.source (s.frame j.source) := by
  have hrefs : (s.frame j.source).state.refs = [] := by rw [h]; rfl
  unfold State.carry
  rw [hrefs]
  dsimp only
  rw [if_pos rfl, frame_release_other _ hne, ← h]

/-- A MOVE with entries to carry (R87). -/
theorem carry_refs (h : (s.frame j.source).state = .held refs) (hrefs : refs ≠ []) : s.carry j =
    let moved := (refs.foldl (fun x p => x.retarget j.target p) s).setFrame j.target
      { s.frame j.target with state := .held refs }
    moved.setFrame j.source { moved.frame j.source with state := .held [] } := by
  have hlist : (s.frame j.source).state.refs = refs := by rw [h]; rfl
  unfold State.carry
  rw [hlist]
  dsimp only
  rw [if_neg hrefs]

/-- Settles O53: the entries retargeted, then the records of the two frames. -/
theorem moveCarriesEntries : Obligations.MoveCarriesEntries := by
  intro s j refs hheld _ hne hlisted
  refine ⟨fun hrefs => ?_, fun hrefs => ?_⟩
  · rw [letGo_eq_release]
    exact carry_empty (hrefs ▸ hheld) hne
  · have changed := entriesChanged_retargets s j.target refs
    have kept : ∀ f, (refs.foldl (fun x p => x.retarget j.target p) s).frame f = s.frame f :=
      (retargets_keep j.target refs s).1
    have maps := (changed.only.trans (mapsOnly_setFrame _ j.target { s.frame j.target with state := .held refs })).trans
      (mapsOnly_setFrame _ j.source { s.frame j.source with state := .held [] })
    refine ⟨_, ?_, maps.rest, fun p => ?_, ?_, frame_setFrame_same .., fun f hs ht => ?_, maps.shape⟩
    · rw [carry_refs hheld hrefs]
      dsimp only
      rw [frame_setFrame_other _ _ _ _ hne, kept]
    · rw [entry_setFrame, entry_setFrame, changed.entry]
      cases he : s.entry p with
      | none => exact ite_self _
      | some e =>
        have hmem : p ∈ refs ↔ e.frame = j.source := by simp [hlisted, he]
        simp only [hmem, Option.map_some]
        split <;> rfl
    · rw [frame_setFrame_other _ _ _ _ hne.symm, frame_setFrame_same]
    · rw [frame_setFrame_other _ _ _ _ hs, frame_setFrame_other _ _ _ _ ht, kept]

end Sys2Proof.Machine
end

section
/-! THEOREMS. A segment's access at its grant (R67, R160–R162, R164, R165, R167). -/

namespace Sys2Proof.Machine

variable {s : State} {i : LinkId} {k : SlotRef} {g : Segment} {t : Transfer} {parts : List Part} {pages : List BackRef}

/-! ### The slot while its segment is granted -/

/-- The SEG of a link no longer in processing: its access has been granted (R161). -/
def State.freed (s : State) (i : LinkId) : State := s.onLink i fun l => { l with segment := none }

@[simp] theorem freed_memory (s : State) (i : LinkId) : (s.freed i).memory = s.memory := onLink_memory ..

@[simp] theorem slot_freed (s : State) (i : LinkId) (k : SlotRef) : (s.freed i).slot k = s.slot k := by
  unfold State.slot State.freed
  rw [link_onLink]
  split <;> rfl

@[simp] theorem slot_withMemory (s : State) (m : Memory) (k : SlotRef) : State.slot { s with memory := m } k = s.slot k := by
  obtain ⟨j, k⟩ := k
  cases j <;> rfl

@[simp] theorem slot_setFrame (s : State) (f : FrameId) (r : FrameRecord) (k : SlotRef) :
    (s.setFrame f r).slot k = s.slot k := by
  unfold State.slot
  rw [link_setFrame]

theorem slot_commonEffect (s : State) (finder : Finder) (e : ErrorEvent) (k : SlotRef) :
    (s.commonEffect finder e).slot k = s.slot k := by
  unfold State.commonEffect
  cases e.kind with
  | corrected bit => exact slot_setFrame ..
  | uncorrectable =>
    dsimp only
    split
    · exact slot_setFrame ..
    · exact (slot_raiseBoth ..).trans (slot_setFrame ..)

/-- A storage error changes no slot (R19, R20). -/
theorem slot_commonEffects (s : State) (finder : Finder) (es : List ErrorEvent) (k : SlotRef) :
    (s.commonEffects finder es).slot k = s.slot k :=
  foldl_keeps (fun x : State => x.slot k = s.slot k) _ es (fun x e _ hx => (slot_commonEffect x finder e k).trans hx) s rfl

/-! ### The right and the translation at the grant -/

/-- Whether a link holds what its transfer needs (R160). -/
def State.MayTransfer (s : State) (i : LinkId) (t : Transfer) : Prop :=
  ∃ r, s.space t.space = some r ∧ (if t.direction = .read then 1 else 2) ≤ r.rank i

theorem direction_need_rank (d : Direction) : d.need.rank = if d = .read then 1 else 2 := by cases d <;> rfl

theorem mayTransfer_iff (s : State) (i : LinkId) (t : Transfer) :
    s.MayTransfer i t ↔ ((s.space t.space).any fun r => r.allows i t.direction.need) = true := by
  unfold State.MayTransfer
  rw [← direction_need_rank]
  cases hs : s.space t.space with
  | none => simp
  | some r => simp [allows_iff]

theorem translatePage_congr {x y : State} (he : ∀ p, x.entry p = y.entry p) (hf : ∀ f, x.frame f = y.frame f)
    (d : Direction) (p : BackRef) : x.translatePage d p = y.translatePage d p := by
  unfold State.translatePage
  simp only [he, hf]

/-- Translation reads the entries and the frame records alone. -/
theorem translate_congr {x y : State} (he : ∀ p, x.entry p = y.entry p) (hf : ∀ f, x.frame f = y.frame f)
    (d : Direction) (sp : SpaceId) (touched : List (Nat × Nat × Nat)) : x.translate d sp touched = y.translate d sp touched := by
  induction touched with
  | nil => rfl
  | cons run rest ih =>
    obtain ⟨number, offset, count⟩ := run
    unfold State.translate
    simp only [translatePage_congr he hf, ih]

theorem translate_freed (s : State) (i : LinkId) (d : Direction) (sp : SpaceId) (touched : List (Nat × Nat × Nat)) :
    (s.freed i).translate d sp touched = s.translate d sp touched :=
  translate_congr (fun _ => entry_onLink ..) (fun _ => frame_onLink ..) d sp touched

/-- The translation that a segment of a transfer meets (R64). -/
def State.found (s : State) (t : Transfer) (g : Segment) : Translation :=
  s.translate t.direction t.space (pagesTouched (t.start + t.position) g.count)

/-- What a slot does of what translation hands to it: the access, or the outcome of the page that decided (R161). -/
def State.respond (s : State) (k : SlotRef) (g : Segment) (t : Transfer) : Translation → State
  | .moveOk parts pages => s.moveSegment k g t parts pages
  | .stop p answer => s.stopSegment k g p answer

/-- A grant, by the right and the translation (R160, R161). -/
theorem grantSegment_active (hg : (s.link i).segment = some g) (ht : s.slot (i, g.slot) = .active t) : s.grantSegment i =
    if (s.space t.space).any fun r => r.allows i t.direction.need then (s.freed i).respond (i, g.slot) g t (s.found t g)
    else (s.freed i).haltReply (i, g.slot) g.tag .access := by
  have hfreed : (s.onLink i fun l => { l with segment := none }) = s.freed i := rfl
  have hspace : (s.freed i).space t.space = s.space t.space := space_onLink ..
  unfold State.grantSegment State.found
  rw [hg]
  dsimp only
  rw [hfreed, slot_freed, ht]
  dsimp only
  rw [hspace, translate_freed]
  cases s.space t.space <;> cases s.translate t.direction t.space (pagesTouched (t.start + t.position) g.count) <;> rfl

theorem grantSegment_lacking (hg : (s.link i).segment = some g) (ht : s.slot (i, g.slot) = .active t)
    (hright : ¬s.MayTransfer i t) : s.grantSegment i = (s.freed i).haltReply (i, g.slot) g.tag .access := by
  rw [grantSegment_active hg ht, if_neg (mt (mayTransfer_iff s i t).2 hright)]

theorem grantSegment_allowed (hg : (s.link i).segment = some g) (ht : s.slot (i, g.slot) = .active t)
    (hright : s.MayTransfer i t) : s.grantSegment i = (s.freed i).respond (i, g.slot) g t (s.found t g) := by
  rw [grantSegment_active hg ht, if_pos ((mayTransfer_iff s i t).1 hright)]

/-! ### The slot's response -/

/-- A slot halted with its SEG answered (R162). -/
theorem haltReply_active (ht : s.slot k = .active t) (tag : Byte) (cause : HaltCause) :
    s.haltReply k tag cause = s.segAnswered k.1 tag k.2 { t with phase := .halted cause } cause.code [] := by
  unfold State.haltReply
  rw [ht]
  exact segReply_setSlot ..

/-- The transfer after a segment accepted (R164, R167). -/
def Transfer.accept (t : Transfer) (g : Segment) (data : List Byte) : Transfer :=
  { t with
    phase := if t.position + g.count = t.length then .final else .data
    position := t.position + g.count
    toggle := !t.toggle
    last := some { toggle := g.toggle, count := g.count, position := t.position + g.count, data := data } }

/-- A segment accepted: its pages marked, and the slot's SEG answered OK (R67, R164, R167). -/
theorem acceptSegment_eq (s : State) (k : SlotRef) (g : Segment) (t : Transfer) (pages : List BackRef) (data : List Byte) :
    s.acceptSegment k g t pages data =
      (pages.foldl (State.changeEntry (markPage t.direction)) s).segAnswered k.1 g.tag k.2 (t.accept g data) 0x00 data :=
  segReply_setSlot ..

theorem markPage_markPage (d : Direction) (e : MapEntry) : markPage d (markPage d e) = markPage d e := by
  simp [markPage]

theorem anyUncorrectable_iff (es : List ErrorEvent) : anyUncorrectable es = true ↔ ∃ e ∈ es, e.kind = .uncorrectable := by
  simp [anyUncorrectable]

theorem not_anyUncorrectable {es : List ErrorEvent} (h : ∀ e ∈ es, e.kind ≠ .uncorrectable) : ¬anyUncorrectable es = true :=
  fun hany => by
    obtain ⟨e, he, hk⟩ := (anyUncorrectable_iff es).1 hany
    exact h e he hk

/-- A read of the stored words: an UNCORRECTABLE one halts the slot, else the bytes read are accepted (R5, R164, R165). -/
theorem moveSegment_read (hd : t.direction = .read) : s.moveSegment k g t parts pages =
    let errors := s.memory.errorsIn (parts.flatMap Part.words)
    let after := State.commonEffects { s with memory := s.memory.writeBack errors } .read errors
    if anyUncorrectable errors then after.haltReply k g.tag .dataLost
    else after.acceptSegment k g t pages (parts.flatMap s.memory.readPart) := by
  unfold State.moveSegment Memory.segmentRead
  rw [hd]
  dsimp only
  cases anyUncorrectable (s.memory.errorsIn (parts.flatMap Part.words)) <;> rfl

/-- A write of the stored words: an UNCORRECTABLE word to merge with halts the slot and nothing is written (R6, R164,
R165). -/
theorem moveSegment_write (hd : t.direction = .write) : s.moveSegment k g t parts pages =
    let errors := s.memory.errorsIn (parts.flatMap Part.mergeWords)
    if anyUncorrectable errors then
      (State.commonEffects { s with memory := s.memory.writeBack errors } .merge errors).haltReply k g.tag .dataLost
    else
      (State.commonEffects { s with memory := (s.memory.segmentWrite parts g.bytes).1 } .merge errors).acceptSegment k g
        t pages [] := by
  unfold State.moveSegment Memory.segmentWrite
  rw [hd]
  dsimp only
  cases anyUncorrectable (s.memory.errorsIn (parts.flatMap Part.mergeWords)) <;> rfl

/-- Settles O43: the right, the translation, then the access by its direction and its errors. -/
theorem grantMovesSegment : Obligations.GrantMovesSegment := by
  intro s i g t hg ht _ freed right found halts accepts
  have slot_after : ∀ m finder es,
      (State.commonEffects { freed with memory := m } finder es).slot (i, g.slot) = .active t := fun m finder es =>
    (slot_commonEffects ..).trans ((slot_withMemory ..).trans ((slot_freed s i (i, g.slot)).trans ht))
  have halts_of : ∀ {x : State} {cause : HaltCause}, s.grantSegment i = x.haltReply (i, g.slot) g.tag cause →
      x.slot (i, g.slot) = .active t → halts x cause := fun {x cause} h hx => h.trans (haltReply_active hx ..)
  have accepts_of : ∀ {x : State} {pages : List BackRef} {data : List Byte},
      s.grantSegment i = x.acceptSegment (i, g.slot) g t pages data → accepts x pages data := fun {x pages data} h =>
    have marked := entriesChanged_foldl (markPage_markPage t.direction) pages x
    ⟨_, marked.rest, marked.entry, marked.only.shape, h.trans (acceptSegment_eq ..)⟩
  have slot_now : freed.slot (i, g.slot) = .active t := (slot_freed s i (i, g.slot)).trans ht
  refine ⟨fun hright => halts_of (grantSegment_lacking hg ht hright) slot_now, fun p cause hright hfound => ?_,
    fun parts pages hright hfound => ?_⟩
  · exact halts_of ((grantSegment_allowed hg ht hright).trans (congrArg (freed.respond (i, g.slot) g t) hfound)) slot_now
  · have hgrant : s.grantSegment i = freed.moveSegment (i, g.slot) g t parts pages :=
      (grantSegment_allowed hg ht hright).trans (congrArg (freed.respond (i, g.slot) g t) hfound)
    have hmemory : freed.memory = s.memory := freed_memory s i
    refine ⟨fun hd => ?_, fun hd => ?_⟩
    · rw [moveSegment_read hd, hmemory] at hgrant
      refine ⟨fun hbad => ?_, fun hgood => ?_⟩
      · exact halts_of (hgrant.trans (if_pos ((anyUncorrectable_iff _).2 hbad))) (slot_after ..)
      · exact accepts_of (hgrant.trans (if_neg (not_anyUncorrectable hgood)))
    · rw [moveSegment_write hd, hmemory] at hgrant
      refine ⟨fun hbad => ?_, fun hgood => ?_⟩
      · exact halts_of (hgrant.trans (if_pos ((anyUncorrectable_iff _).2 hbad))) (slot_after ..)
      · exact accepts_of (hgrant.trans (if_neg (not_anyUncorrectable hgood)))

end Sys2Proof.Machine
end

section
/-! THEOREMS. OPEN and CLOSE of a transfer slot (R77, R152–R154, R169). -/

namespace Sys2Proof.Machine

variable {s : State} {i : LinkId} {tag k d id : Byte} {slot : SlotId} {sp : SpaceId} {r : SpaceRecord} {start length : Nat}

theorem exec_openSlot (h : s.Ready i tag) (k d id a b c e f g : Byte) :
    exec (.openSlot i tag [k, d, id, a, b, c, e, f, g]) s =
      .next (serveOpen i tag k d id (nat24 a b c) (nat24 e f g) (s.heard i)).finish :=
  congrArg _ (Ready_immediate h .openSlot [k, d, id, a, b, c, e, f, g] rfl rfl)

theorem exec_closeSlot (h : s.Ready i tag) (k : Byte) :
    exec (.closeSlot i tag [k]) s = .next (serveClose i tag k (s.heard i)).finish :=
  congrArg _ (Ready_immediate h .closeSlot [k] rfl rfl)

/-! ### OPEN (R153, R154) -/

/-- The direction that a direction byte in range names (Table 10-2). -/
theorem direction?_eq_some (h : d.toNat < 2) : direction? d = some (if d = 0 then .read else .write) := by
  have hd : d = 0 ∨ d = 1 := by
    rcases (show d.toNat = 0 ∨ d.toNat = 1 by omega) with h | h
    · exact Or.inl (BitVec.eq_of_toNat_eq h)
    · exact Or.inr (BitVec.eq_of_toNat_eq h)
  rcases hd with rfl | rfl <;> rfl

theorem direction?_eq_none (h : ¬d.toNat < 2) : direction? d = none := by
  have hne : ∀ c : Byte, c.toNat < 2 → d ≠ c := by rintro c hc rfl; exact h hc
  unfold direction?
  rw [if_neg (hne 0 (by decide)), if_neg (hne 1 (by decide))]

/-- The rank that a transfer of the named direction needs (R153). -/
theorem openRank_eq (d : Byte) :
    (if d = 0 then Direction.read else .write).need.rank = if d = 0 then 1 else 2 := by
  split <;> rfl

/-- The slot number or the direction out of range (R153). -/
theorem serveOpen_badNumbers (h : ¬(k.toNat < 4 ∧ d.toNat < 2)) :
    serveOpen i tag k d id start length s = s.reply i .openSlot tag [0x17, k] := by
  unfold serveOpen
  by_cases hk : k.toNat < 4
  · rw [direction?_eq_none fun hd => h ⟨hk, hd⟩]
    cases slot? k <;> rfl
  · rw [slot?_eq_none (Nat.not_lt.1 hk)]
    rfl

theorem serveOpen_busy (hk : k.toNat = slot.val) (hd : d.toNat < 2) {t : Transfer} (ht : s.slot (i, slot) = .active t) :
    serveOpen i tag k d id start length s = s.reply i .openSlot tag [0x40, k] := by
  unfold serveOpen
  rw [slot?_eq_some hk, direction?_eq_some hd]
  dsimp only
  rw [ht]
  rfl

theorem serveOpen_noRight (hk : k.toNat = slot.val) (hd : d.toNat < 2) {last : Option LastOutcome}
    (ht : s.slot (i, slot) = .idle last) {st : Status}
    (hfind : s.findSpace i id (if d = 0 then Direction.read else .write).need = .error st) :
    serveOpen i tag k d id start length s = s.reply i .openSlot tag [st.code, k] := by
  unfold serveOpen
  rw [slot?_eq_some hk, direction?_eq_some hd]
  dsimp only
  rw [ht]
  dsimp only
  rw [hfind]

/-- The transfer of a slot just opened (R154). -/
def openedTransfer (d : Byte) (sp : SpaceId) (start length : Nat) (timer : Timer) : Transfer :=
  { phase := .data, direction := if d = 0 then .read else .write, space := sp, counted := true, start := start,
    length := length, position := 0, toggle := false, last := none, timer := timer }

/-- OPEN of an IDLE slot on a space whose right the link holds: the range decides (R153, R154). -/
theorem serveOpen_holds (hk : k.toNat = slot.val) (hd : d.toNat < 2) {last : Option LastOutcome}
    (ht : s.slot (i, slot) = .idle last) (hholds : s.Holds i id (if d = 0 then 1 else 2) sp r) :
    serveOpen i tag k d id start length s =
      if 131071 < start ∨ length = 0 ∨ 131072 < length ∨ r.size * 512 < start + length then
        s.reply i .openSlot tag [0x17, k]
      else
        (s.setSlot (i, slot) (.active (openedTransfer d sp start length (s.link i).freshTimer))).reply i .openSlot tag
          [0x00, k] := by
  unfold serveOpen
  rw [slot?_eq_some hk, direction?_eq_some hd]
  dsimp only
  rw [ht]
  dsimp only
  rw [findSpace_of_holds (openRank_eq d ▸ hholds), startedTimer_eq_freshTimer]
  rfl

/-- Checks 1 to 3 of R50 leave a space whose right the link holds. -/
theorem holds_of_spaceRefusal?_eq_none {rank : Nat} (h : s.spaceRefusal? i id rank = none) :
    ∃ sp r, s.Holds i id rank sp r := by
  unfold State.spaceRefusal? at h
  rcases space?_cases id with hbad | ⟨hgood, sp, hid⟩
  · rw [if_pos hbad] at h
    cases h
  · rw [if_neg hgood, find_space_named hid] at h
    dsimp only at h
    cases hs : s.space sp with
    | none => rw [hs] at h; cases h
    | some r =>
      rw [hs] at h
      dsimp only at h
      by_cases hr : r.rank i < rank
      · rw [if_pos hr] at h
        cases h
      · exact ⟨sp, r, hid, hs, Nat.not_lt.1 hr⟩

/-- The status of a refused OPEN is that of the first check of R153 that fails. -/
theorem serveOpen_refused {code : Byte} (h : s.openRefusal? i k d id start length = some code) :
    serveOpen i tag k d id start length (s.heard i) = (s.heard i).reply i .openSlot tag [code, k] := by
  unfold State.openRefusal? at h
  by_cases hnum : k.toNat < 4 ∧ d.toNat < 2
  · rw [dif_pos hnum] at h
    obtain ⟨hk4, hd⟩ := hnum
    have hk : k.toNat = (⟨k.toNat, hk4⟩ : SlotId).val := rfl
    have hheard := slot_heard s i (i, ⟨k.toNat, hk4⟩)
    cases ht : s.slot (i, ⟨k.toNat, hk4⟩) with
    | active t =>
      rw [ht] at h hheard
      obtain rfl := Option.some.inj h
      exact serveOpen_busy hk hd hheard
    | idle last =>
      rw [ht] at h hheard
      dsimp only at h
      cases hspace : s.spaceRefusal? i id (if d = 0 then 1 else 2) with
      | some code' =>
        rw [hspace] at h
        obtain rfl := Option.some.inj h
        obtain ⟨st, hfind, rfl⟩ := findSpace_refused (openRank_eq d ▸ hspace)
        exact serveOpen_noRight hk hd hheard ((findSpace_heard ..).trans hfind)
      | none =>
        obtain ⟨sp, r, hholds⟩ := holds_of_spaceRefusal?_eq_none hspace
        rw [hspace, find_space_named hholds.named] at h
        dsimp only at h
        rw [hholds.live] at h
        dsimp only at h
        rw [serveOpen_holds hk hd hheard (holds_heard hholds)]
        split at h
        · next hout =>
          obtain rfl := Option.some.inj h
          exact if_pos hout
        · cases h
  · rw [dif_neg hnum] at h
    obtain rfl := Option.some.inj h
    exact serveOpen_badNumbers hnum

/-! ### CLOSE (R77, R152, R169) -/

theorem serveClose_range (h : 4 ≤ k.toNat) : serveClose i tag k s = s.reply i .closeSlot tag [0x17, k, 0, 0, 0, 0] := by
  unfold serveClose
  rw [slot?_eq_none h]
  rfl

theorem serveClose_idle (hk : k.toNat = slot.val) {last : Option LastOutcome} (ht : s.slot (i, slot) = .idle last) :
    serveClose i tag k s = s.reply i .closeSlot tag [0x41, k, 0, 0, 0, 0] := by
  unfold serveClose
  rw [slot?_eq_some hk]
  dsimp only
  rw [ht]
  rfl

theorem serveClose_active (hk : k.toNat = slot.val) {t : Transfer} (ht : s.slot (i, slot) = .active t) :
    serveClose i tag k s =
      (s.idleSlot (i, slot) (some { status := t.phase.finalStatus, position := t.position })).reply i .closeSlot tag
        ([0x00, k, t.phase.finalStatus.code] ++ be24 t.position) := by
  unfold serveClose
  rw [slot?_eq_some hk]
  dsimp only
  rw [ht]
  rfl

@[simp] theorem canTake_leaveWaiters (s : State) (k : SlotRef) (j : LinkId) :
    ((s.leaveWaiters k).link j).canTake = (s.link j).canTake := by
  cases j <;> rfl

/-- The final status of each phase, with its code (Table 8-4, Table 10-14). -/
theorem finalStatus_of_phase {phase : Phase} {code : Byte} {status : FinalStatus}
    (h : (phase = .data ∧ code = 0x02 ∧ status = FinalStatus.short) ∨
      (phase = .final ∧ code = 0x03 ∧ status = FinalStatus.done) ∨
      ∃ cause, phase = .halted cause ∧ code = cause.code ∧ status = FinalStatus.halted cause) :
    phase.finalStatus = status ∧ phase.finalStatus.code = code := by
  rcases h with ⟨rfl, rfl, rfl⟩ | ⟨rfl, rfl, rfl⟩ | ⟨cause, rfl, rfl, rfl⟩ <;> exact ⟨rfl, rfl⟩

/-- Settles O39: OPEN by its first failing check or as accepted, and CLOSE by the slot it names. -/
theorem openAndClose : Obligations.OpenAndClose := by
  refine ⟨fun s i tag k d id a b c e f g h => ?_, fun s i tag k h => ?_⟩
  · intro start length
    have run := exec_openSlot h k d id a b c e f g
    refine ⟨fun code hcode => Ready_answers h .openSlot run (serveOpen_refused hcode), ?_⟩
    intro slot last sp r hk hd hidle hholds hstart hpos hlen hfit
    have inside : ¬(131071 < start ∨ length = 0 ∨ 131072 < length ∨ r.size * 512 < start + length) := by omega
    have timer : ((s.heard i).link i).freshTimer = (s.link i).freshTimer := by rw [link_heard_same]; rfl
    rw [run, serveOpen_holds hk hd ((slot_heard ..).trans hidle) (holds_heard hholds), if_neg inside, timer]
    refine congrArg _ (Stable_finish h.stable ?_ fun j => ?_)
    · rw [reply_arbiter, setSlot_arbiter, heard_arbiter]
    · rw [canTake_reply, canTake_setSlot, canTake_heard]
  · have run := exec_closeSlot h k
    refine ⟨fun hk => Ready_answers h .closeSlot run (serveClose_range hk), fun slot hk => ⟨fun last hidle => ?_, ?_⟩⟩
    · exact Ready_answers h .closeSlot run (serveClose_idle hk ((slot_heard ..).trans hidle))
    · intro t code status ht hphase
      obtain ⟨rfl, rfl⟩ := finalStatus_of_phase hphase
      have closed : (s.heard i).leaveWaiters (i, slot) = { s.heard i with
          jobs := s.jobs.map fun j => { j with waiters := j.waiters.filter fun w => w ≠ (i, slot) } } := by
        unfold State.leaveWaiters
        rw [heard_jobs]
      rw [run, serveClose_active hk ((slot_heard ..).trans ht), ← closed]
      refine congrArg _ (Stable_finish h.stable ?_ fun j => ?_)
      · rw [reply_arbiter]
        exact (setSlot_arbiter ..).trans (heard_arbiter ..)
      · rw [canTake_reply]
        exact (canTake_setSlot ..).trans ((canTake_leaveWaiters ..).trans (canTake_heard ..))

end Sys2Proof.Machine
end

section
/-! THEOREMS. A write segment that waits for a copy or makes a PRIVATE job (R77–R79, R161, R175). -/

namespace Sys2Proof.Machine

variable {s : State} {i : LinkId} {k : SlotRef} {g : Segment} {t : Transfer} {p : BackRef} {e : MapEntry}
  {target : FrameId} {rest : List FrameId}

/-- The SEG of an open slot answered (R170). -/
theorem segReply_active (ht : s.slot k = .active t) (tag : Byte) (status : Status) (data : List Byte) :
    s.segReply k tag status data = s.segAnswered k.1 tag k.2 t status.code data := by
  unfold State.segReply
  rw [ht]
  dsimp only
  rw [startedTimer_eq_freshTimer]
  rfl

@[simp] theorem slot_withJobs (s : State) (jobs : List CopyJob) (k : SlotRef) :
    State.slot { s with jobs := jobs } k = s.slot k := by
  obtain ⟨j, k⟩ := k
  cases j <;> rfl

/-! ### Waiter sets (R77, R79) -/

/-- A slot joins the waiters of a job, if it does not stand there already. -/
def CopyJob.joinedBy (j : CopyJob) (k : SlotRef) : CopyJob :=
  { j with waiters := if k ∈ j.waiters then j.waiters else j.waiters ++ [k] }

/-- A slot leaves the waiters of a job. -/
def CopyJob.leftBy (j : CopyJob) (k : SlotRef) : CopyJob :=
  { j with waiters := j.waiters.filter fun w => w ≠ k }

theorem leaveWaiters_eq (s : State) (k : SlotRef) :
    s.leaveWaiters k = { s with jobs := s.jobs.map fun j => j.leftBy k } := rfl

theorem joinWaiters_eq (s : State) (k : SlotRef) (picks : CopyJob → Bool) :
    s.joinWaiters k picks = { s with jobs := s.jobs.map fun j => if picks j then j.joinedBy k else j.leftBy k } := rfl

theorem mem_joinedBy (j : CopyJob) (k : SlotRef) : k ∈ (j.joinedBy k).waiters := by
  unfold CopyJob.joinedBy
  dsimp only
  split
  · assumption
  · exact List.mem_append_right _ List.mem_cons_self

/-- The other waiters of a job stay when a slot joins it. -/
theorem joinedBy_others (j : CopyJob) (k : SlotRef) :
    (j.joinedBy k).waiters.filter (· ≠ k) = j.waiters.filter (· ≠ k) := by
  unfold CopyJob.joinedBy
  dsimp only
  split
  · rfl
  · rw [List.filter_append, List.filter_singleton]
    simp

/-! ### A PRIVATE job made (R76, R78) -/

/-- A job that joins the queue: it is COPYING if it is the only one (R76). -/
def State.newJob (s : State) (kind : JobKind) (source target : FrameId) (waiters : List SlotRef) : CopyJob :=
  { kind := kind, source := source, target := target, waiters := waiters,
    phase := if s.jobs = [] then .copying else .queued }

theorem setEntry_setFrame (s : State) (p : BackRef) (e : Option MapEntry) (f : FrameId) (r : FrameRecord) :
    (s.setFrame f r).setEntry p e = (s.setEntry p e).setFrame f r := by
  unfold State.setEntry
  rw [space_setFrame]
  cases s.space p.1 <;> rfl

theorem examineFall_eq_freeFalls (s : State) : s.examineFall = s.freeFalls s.freeQueue :=
  (freeFalls_eq_examineFall s s.freeQueue).symm

/-- An access presented changes who waits, if its client does not wait already (R10). -/
theorem present_eq_withArbiter (s : State) (c : Client) : s.present c =
    s.withArbiter (if c ∉ s.arbiter.waiting then { s.arbiter with waiting := s.arbiter.waiting ++ [c] } else s.arbiter) := by
  unfold State.present
  by_cases hc : c ∈ s.arbiter.waiting
  · rw [if_pos hc, if_neg (not_not_intro hc)]
    rfl
  · rw [if_neg hc, if_pos hc]
    rfl

/-- The fall of the free count examined, written out (R36, R39). -/
theorem freeFalls_fields (s : State) (queue rest : List FrameId) (jobs : List CopyJob) (a : Arbiter) :
    State.freeFalls { s with freeQueue := queue, jobs := jobs, arbiter := a } rest =
      let low := s.supply = .normal ∧ rest.length < s.lowMark
      { (if low then s.raiseBoth (.frameSupply .low rest.length) else s) with
        freeQueue := rest, supply := if low then .low else s.supply, jobs := jobs, arbiter := a } := by
  unfold State.freeFalls
  by_cases hlow : s.supply = .normal ∧ rest.length < s.lowMark
  · simp only [if_pos hlow]
    rfl
  · simp only [if_neg hlow]

/-- The head of the free queue taken for a job, its copy presented if it is the only one (R32, R76). -/
def State.jobMade (s : State) (job : CopyJob) (rest : List FrameId) : State :=
  { (s.setFrame job.target { s.frame job.target with state := .target }) with
    freeQueue := rest
    jobs := s.jobs ++ [job]
    arbiter := if s.jobs = [] ∧ .copyEngine ∉ s.arbiter.waiting
      then { s.arbiter with waiting := s.arbiter.waiting ++ [.copyEngine] } else s.arbiter }

theorem makeJob_eq (hq : s.freeQueue = target :: rest) (kind : JobKind) (source : FrameId) (waiters : List SlotRef) :
    s.makeJob kind source waiters = (s.jobMade (s.newJob kind source target waiters) rest).freeFalls rest := by
  unfold State.makeJob
  rw [hq]
  dsimp only
  rw [examineFall_eq_freeFalls]
  by_cases hj : s.jobs = []
  · simp only [hj, if_true, true_and, present_eq_withArbiter, State.jobMade, State.newJob]
    rfl
  · simp only [hj, if_false, false_and, State.jobMade, State.newJob]
    rfl

theorem setEntry_leaveWaiters (s : State) (k : SlotRef) (p : BackRef) (e : Option MapEntry) :
    (s.leaveWaiters k).setEntry p e = (s.setEntry p e).leaveWaiters k := by
  have hspace : (s.leaveWaiters k).space p.1 = s.space p.1 := rfl
  unfold State.setEntry
  rw [hspace]
  cases s.space p.1 <;> rfl

theorem slot_setEntry (s : State) (p : BackRef) (e : Option MapEntry) (k : SlotRef) :
    (s.setEntry p e).slot k = s.slot k := by
  unfold State.slot
  rw [link_setEntry]

/-- The part with a PRIVATE job made for a page on the head of the free queue, and the job queue as given (R36, R76,
R78). -/
def State.privateMade (s : State) (p : BackRef) (e : MapEntry) (target : FrameId) (rest : List FrameId)
    (jobs : List CopyJob) : State :=
  let low := s.supply = .normal ∧ rest.length < s.lowMark
  let made := (s.setFrame target { s.frame target with state := .target }).setEntry p
    (some { e with copyPending := true })
  { (if low then made.raiseBoth (.frameSupply .low rest.length) else made) with
    freeQueue := rest
    supply := if low then .low else s.supply
    jobs := jobs
    arbiter := if s.jobs = [] ∧ .copyEngine ∉ s.arbiter.waiting
      then { s.arbiter with waiting := s.arbiter.waiting ++ [.copyEngine] } else s.arbiter }

theorem slot_privateMade (s : State) (p : BackRef) (e : MapEntry) (target : FrameId) (rest : List FrameId)
    (jobs : List CopyJob) (k : SlotRef) : (s.privateMade p e target rest jobs).slot k = s.slot k := by
  have fields : ∀ (x : State) (queue : List FrameId) (st : SupplyState) (a : Arbiter),
      State.slot { x with freeQueue := queue, supply := st, jobs := jobs, arbiter := a } k = x.slot k := by
    obtain ⟨j, k⟩ := k
    cases j <;> exact fun _ _ _ _ => rfl
  unfold State.privateMade
  dsimp only
  rw [fields]
  split
  · rw [slot_raiseBoth, slot_setEntry, slot_setFrame]
  · rw [slot_setEntry, slot_setFrame]

/-- A slot that leaves its waiter set before the job is made leaves the rest as it is. -/
theorem privateMade_leaveWaiters (s : State) (p : BackRef) (e : MapEntry) (target : FrameId) (rest : List FrameId)
    (jobs : List CopyJob) (k : SlotRef) :
    (s.leaveWaiters k).privateMade p e target rest jobs = s.privateMade p e target rest jobs := by
  have made : ((s.leaveWaiters k).setFrame target { (s.leaveWaiters k).frame target with state := .target }).setEntry p
      (some { e with copyPending := true }) = ((s.setFrame target { s.frame target with state := .target }).setEntry p
        (some { e with copyPending := true })).leaveWaiters k := setEntry_leaveWaiters (s.setFrame target _) k p _
  have none_left : (s.leaveWaiters k).jobs = [] ↔ s.jobs = [] := List.map_eq_nil_iff
  have supply : (s.leaveWaiters k).supply = s.supply := rfl
  have mark : (s.leaveWaiters k).lowMark = s.lowMark := rfl
  unfold State.privateMade
  rw [made, supply, mark]
  simp only [none_left]
  by_cases hlow : s.supply = .normal ∧ rest.length < s.lowMark
  · simp only [if_pos hlow]
    rfl
  · simp only [if_neg hlow]
    rfl

/-- The head of the free queue taken for a PRIVATE job, the fall of the free count examined (R36, R76, R78). -/
theorem makePrivate_eq (hq : s.freeQueue = target :: rest) (k : SlotRef) : s.makePrivate p e k =
    s.privateMade p e target rest (s.jobs ++ [s.newJob (.privateCopy p) e.frame target [k]]) := by
  have supply : ((s.setEntry p (some { e with copyPending := true })).setFrame target
      { s.frame target with state := .target }).supply = s.supply := setEntry_supply ..
  have mark : ((s.setEntry p (some { e with copyPending := true })).setFrame target
      { s.frame target with state := .target }).lowMark = s.lowMark := setEntry_lowMark ..
  unfold State.makePrivate State.privateMade
  rw [makeJob_eq ((setEntry_freeQueue ..).trans hq), State.jobMade, freeFalls_fields]
  unfold State.newJob
  dsimp only
  rw [frame_setEntry, setEntry_setFrame, supply, mark, setEntry_jobs, setEntry_arbiter]

/-! ### The slot's outcome (R161, R175) -/

/-- A slot that joins the waiters of the jobs a test picks, and leaves those of any other. -/
structure State.Joined (s : State) (k : SlotRef) (picks : CopyJob → Prop) (jobs : List CopyJob) : Prop where
  length : jobs.length = s.jobs.length
  each : ∀ (n : Nat) (j j' : CopyJob), s.jobs[n]? = some j → jobs[n]? = some j' →
    j' = { j with waiters := j'.waiters } ∧
    (picks j → k ∈ j'.waiters ∧ j'.waiters.filter (· ≠ k) = j.waiters.filter (· ≠ k)) ∧
    (¬picks j → j'.waiters = j.waiters.filter (· ≠ k))

theorem joined_map {picks : CopyJob → Prop} {test : CopyJob → Bool} (ht : ∀ j, test j = true ↔ picks j) (s : State)
    (k : SlotRef) : s.Joined k picks (s.jobs.map fun j => if test j then j.joinedBy k else j.leftBy k) where
  length := List.length_map ..
  each n j j' hj hj' := by
    rw [List.getElem?_map, hj, Option.map_some] at hj'
    obtain rfl := Option.some.inj hj'
    by_cases hp : picks j
    · rw [if_pos ((ht j).2 hp)]
      exact ⟨rfl, fun _ => ⟨mem_joinedBy j k, joinedBy_others j k⟩, fun h => absurd hp h⟩
    · rw [if_neg (mt (ht j).1 hp)]
      exact ⟨rfl, fun h => absurd h hp, fun _ => rfl⟩

/-- A slot joins the waiters of the jobs that a test picks, and its SEG is answered WAIT. -/
theorem joinWaiters_wait (ht : s.slot k = .active t) (tag : Byte) {picks : CopyJob → Prop} {test : CopyJob → Bool}
    (htest : ∀ j, test j = true ↔ picks j) : ∃ jobs, s.Joined k picks jobs ∧
      (s.joinWaiters k test).segReply k tag .wait [] = State.segAnswered { s with jobs := jobs } k.1 tag k.2 t 0x01 [] := by
  rw [joinWaiters_eq]
  exact ⟨_, joined_map htest s k, segReply_active ((slot_withJobs ..).trans ht) tag .wait []⟩

/-- WAIT-COPY picks the PRIVATE job that names the page (R79). -/
theorem stopSegment_waitCopy (ht : s.slot k = .active t) (g : Segment) (p : BackRef) :
    ∃ jobs, s.Joined k (fun j => j.kind = .privateCopy p) jobs ∧
      s.stopSegment k g p .waitCopy = State.segAnswered { s with jobs := jobs } k.1 g.tag k.2 t 0x01 [] :=
  joinWaiters_wait ht g.tag fun _ => decide_eq_true_iff

/-- WAIT-MOVE picks the MOVE job whose source is the page's frame (R79). -/
theorem stopSegment_waitMove (ht : s.slot k = .active t) (g : Segment) (p : BackRef) (f : FrameId) :
    ∃ jobs, s.Joined k (fun j => j.entry? = none ∧ j.source = f) jobs ∧
      s.stopSegment k g p (.waitMove f) = State.segAnswered { s with jobs := jobs } k.1 g.tag k.2 t 0x01 [] :=
  joinWaiters_wait ht g.tag fun j => by
    unfold CopyJob.entry?
    cases j.kind <;> simp

theorem stopSegment_queueFull (ht : s.slot k = .active t) (g : Segment) (p : BackRef) (e : MapEntry)
    (hfull : 8 ≤ s.jobs.length) : s.stopSegment k g p (.needsCopy e) =
      State.segAnswered { s with jobs := s.jobs.map fun j => j.leftBy k } k.1 g.tag k.2 t 0x01 [] := by
  rw [← leaveWaiters_eq]
  exact (if_pos hfull).trans (segReply_active ((slot_withJobs ..).trans ht) g.tag .wait [])

theorem stopSegment_noFrame (ht : s.slot k = .active t) (g : Segment) (p : BackRef) (e : MapEntry)
    (hroom : s.jobs.length < 8) (hfree : s.freeQueue = []) : s.stopSegment k g p (.needsCopy e) =
      s.segAnswered k.1 g.tag k.2 { t with phase := .halted .noFrame } 0x30 [] :=
  (if_neg (Nat.not_le.2 hroom)).trans ((if_pos hfree).trans (haltReply_active ht g.tag .noFrame))

/-- NEEDS-COPY with room and a free frame: the slot leaves its waiter set and is the waiter of the job made (R78). -/
theorem stopSegment_makes (ht : s.slot k = .active t) (g : Segment) (p : BackRef) (e : MapEntry)
    (hroom : s.jobs.length < 8) (hq : s.freeQueue = target :: rest) : s.stopSegment k g p (.needsCopy e) =
      (s.privateMade p e target rest ((s.jobs.map fun j => j.leftBy k) ++
        [s.newJob (.privateCopy p) e.frame target [k]])).segAnswered k.1 g.tag k.2 t 0x01 [] := by
  have hstop : s.stopSegment k g p (.needsCopy e) = ((s.leaveWaiters k).makePrivate p e k).segReply k g.tag .wait [] :=
    (if_neg (Nat.not_le.2 hroom)).trans (if_neg (by rw [hq]; nofun))
  have none_left : (s.leaveWaiters k).jobs = [] ↔ s.jobs = [] := List.map_eq_nil_iff
  have job : (s.leaveWaiters k).newJob (.privateCopy p) e.frame target [k] =
      s.newJob (.privateCopy p) e.frame target [k] := by
    unfold State.newJob
    simp only [none_left]
  rw [hstop, makePrivate_eq (show (s.leaveWaiters k).freeQueue = _ from hq), privateMade_leaveWaiters, job,
    segReply_active ((slot_privateMade ..).trans ht)]
  rfl

/-- Settles O44: the translation's answer taken by the slot, case by case. -/
theorem grantWaitsForCopy : Obligations.GrantWaitsForCopy := by
  intro s i g t p why hg ht _ hright hfound freed joined
  have hslot : freed.slot (i, g.slot) = .active t := (slot_freed s i (i, g.slot)).trans ht
  have hjobs : freed.jobs = s.jobs := onLink_jobs ..
  have hfree : freed.freeQueue = s.freeQueue := onLink_freeQueue ..
  have grant : s.grantSegment i = freed.stopSegment (i, g.slot) g p why :=
    (grantSegment_allowed hg ht hright).trans (congrArg (freed.respond (i, g.slot) g t) hfound)
  have joined_of : ∀ {picks : CopyJob → Prop}, (∃ jobs, freed.Joined (i, g.slot) picks jobs ∧
      freed.stopSegment (i, g.slot) g p why = State.segAnswered { freed with jobs := jobs } i g.tag g.slot t 0x01 []) →
      joined picks := fun {picks} h => by
    obtain ⟨jobs, ⟨hlen, heach⟩, hstop⟩ := h
    rw [hjobs] at hlen heach
    exact ⟨jobs, hlen, heach, grant.trans hstop⟩
  refine ⟨fun hwhy => joined_of (hwhy ▸ stopSegment_waitCopy hslot g p), fun f hwhy =>
    joined_of (hwhy ▸ stopSegment_waitMove hslot g p f), fun e hwhy => ?_⟩
  subst hwhy
  refine ⟨fun hfull => ?_, fun hroom hnone => ?_, fun target rest hroom hqueue => ?_⟩
  · rw [grant, stopSegment_queueFull hslot g p e (hjobs ▸ hfull), hjobs]
    rfl
  · rw [grant, stopSegment_noFrame hslot g p e (hjobs ▸ hroom) (hfree.trans hnone)]
  · intro low made job
    rw [grant, stopSegment_makes hslot g p e (hjobs ▸ hroom) (hfree.trans hqueue)]
    have hframe : freed.frame target = s.frame target := frame_onLink ..
    have hsupply : freed.supply = s.supply := onLink_supply ..
    have hmark : freed.lowMark = s.lowMark := onLink_lowMark ..
    have harbiter : freed.arbiter = s.arbiter := onLink_arbiter ..
    unfold State.privateMade State.newJob
    rw [hframe, hsupply, hmark, harbiter, hjobs]
    rfl

end Sys2Proof.Machine
end

section
/-! THEOREMS. The completion of a copy: its job resolved by Table 4-2 or Table 4-4, and the next job started (R76, R80–R83,
R87–R91, R159, R162, R175). -/

namespace Sys2Proof.Machine

variable {s x : State} {j : CopyJob} {p : BackRef} {e : MapEntry} {f : FrameId}

/-! ### What the resolution of a job leaves of the job queue (R76) -/

@[simp] theorem jobs_commonEffect (s : State) (finder : Finder) (e : ErrorEvent) :
    (s.commonEffect finder e).jobs = s.jobs := by
  unfold State.commonEffect
  cases e.kind with
  | corrected bit => rfl
  | uncorrectable =>
    dsimp only
    split
    · rfl
    · exact raiseBoth_jobs ..

@[simp] theorem jobs_commonEffects (s : State) (finder : Finder) (es : List ErrorEvent) :
    (s.commonEffects finder es).jobs = s.jobs :=
  foldl_keeps (fun x : State => x.jobs = s.jobs) _ es (fun x e _ hx => (jobs_commonEffect x finder e).trans hx) s rfl

@[simp] theorem jobs_release (s : State) (f : FrameId) : (s.release f).jobs = s.jobs := by
  unfold State.release
  split
  · exact jobs_retireFrame ..
  · exact kickClearer_jobs ..

@[simp] theorem jobs_deferredRelease (s : State) (f : FrameId) : (s.deferredRelease f).jobs = s.jobs := by
  unfold State.deferredRelease
  split
  · exact jobs_release ..
  · rfl

@[simp] theorem jobs_retireFree (s : State) (f : FrameId) (d : Bool) : (s.retireFree f d).jobs = s.jobs :=
  (jobs_retireFrame ..).trans (setSupply_jobs ..)

@[simp] theorem jobs_resolveFree (s : State) (f : FrameId) : (s.resolveFree f).jobs = s.jobs := by
  unfold State.resolveFree
  dsimp only
  split_ifs
  · exact jobs_retireFree ..
  · exact jobs_retireFree ..
  · rfl
  · rfl

@[simp] theorem jobs_clearCopyPending (s : State) (p : BackRef) : (s.clearCopyPending p).jobs = s.jobs := by
  unfold State.clearCopyPending
  split
  · rfl
  · exact setEntry_jobs ..

@[simp] theorem jobs_clearMoving (s : State) (f : FrameId) : (s.clearMoving f).jobs = s.jobs := rfl

@[simp] theorem jobs_slotReady (s : State) (waiters : List SlotRef) : (s.slotReady waiters).jobs = s.jobs :=
  foldl_keeps (fun x : State => x.jobs = s.jobs) _ _ (fun x i _ hx => by
    split
    · exact hx
    · exact (raiseOn_jobs ..).trans hx) s rfl

@[simp] theorem jobs_haltSlot (s : State) (k : SlotRef) (cause : HaltCause) : (s.haltSlot k cause).jobs = s.jobs := by
  obtain ⟨l, waiting, h⟩ := haltSlot_frame s k cause
  rw [h, setLink_jobs]

@[simp] theorem jobs_failWaiters (s : State) (waiters : List SlotRef) : (s.failWaiters waiters).jobs = s.jobs :=
  (jobs_slotReady ..).trans
    (foldl_keeps (fun x : State => x.jobs = s.jobs) _ _ (fun x k _ hx => (jobs_haltSlot x k _).trans hx) s rfl)

@[simp] theorem jobs_answerRequester (s : State) (requester : Option (LinkId × Byte)) (status : Status) (f : FrameId) :
    (s.answerRequester requester status f).jobs = s.jobs := by
  rcases requester with _ | ⟨i, tag⟩
  · rfl
  · exact (enqueue_jobs ..).trans (onLink_jobs ..)

theorem jobs_carry (s : State) (j : CopyJob) : (s.carry j).jobs = s.jobs := by
  unfold State.carry
  dsimp only
  rw [setFrame_jobs]
  split
  · exact jobs_release ..
  · exact (setFrame_jobs ..).trans (retargets_keep j.target _ s).2.1

theorem jobs_resolvePrivate (s : State) (j : CopyJob) (p : BackRef) (bad : Bool) :
    (s.resolvePrivate j p bad).jobs = s.jobs := by
  unfold State.resolvePrivate
  dsimp only
  split_ifs <;> simp

theorem jobs_resolveMove (s : State) (j : CopyJob) (requester : Option (LinkId × Byte)) (bad : Bool) :
    (s.resolveMove j requester bad).jobs = s.jobs := by
  unfold State.resolveMove
  dsimp only
  split_ifs <;> simp [jobs_carry]

theorem jobs_resolvePoisonedTarget (s : State) (j : CopyJob) : (s.resolvePoisonedTarget j).jobs = s.jobs := by
  unfold State.resolvePoisonedTarget
  cases j.kind <;> simp

/-- The resolution of a job leaves the other jobs as they are. -/
theorem jobs_resolveJob (s : State) (j : CopyJob) (bad : Bool) : (s.resolveJob j bad).jobs = s.jobs := by
  have dealt : (s.freeSourceResolved j).jobs = s.jobs := by
    unfold State.freeSourceResolved
    cases j.kind with
    | move requester => rfl
    | privateCopy p =>
      dsimp only
      split
      · exact jobs_resolveFree ..
      · rfl
  rw [resolveJob_eq, ← dealt]
  unfold State.resolveDealt
  split
  · exact jobs_resolvePoisonedTarget ..
  · cases j.kind with
    | privateCopy p => exact jobs_resolvePrivate ..
    | move requester => exact jobs_resolveMove ..

/-- The part with the first of the remaining jobs started, if there is one (R76). -/
def State.nextStarted (x : State) : List CopyJob → State
  | [] => x
  | next :: more =>
    { x with
      jobs := { next with phase := .copying } :: more
      arbiter := if .copyEngine ∈ x.arbiter.waiting then x.arbiter
        else { x.arbiter with waiting := x.arbiter.waiting ++ [.copyEngine] } }

theorem startNextJob_eq : x.startNextJob = x.nextStarted x.jobs := by
  unfold State.startNextJob
  cases x.jobs with
  | nil => rfl
  | cons next more =>
    unfold State.present State.nextStarted
    dsimp only
    split <;> rfl

/-- COPY_COMPLETION with a copy in progress and a job at the head (R76). -/
theorem exec_copyCompletion {a b : FrameId} {errors : List ErrorEvent} {rest : List CopyJob}
    (hc : s.arbiter.current = some (.copy a b errors)) (hj : s.jobs = j :: rest) : exec .copyCompletion s =
      .next (((State.commonEffects { s.endAccess with jobs := rest } .copy errors).resolveJob j
        (anyUncorrectable errors)).nextStarted rest).finish := by
  have jobs : ((State.commonEffects { s.endAccess with jobs := rest } .copy errors).resolveJob j
      (anyUncorrectable errors)).jobs = rest := (jobs_resolveJob ..).trans (jobs_commonEffects ..)
  change execCopyCompletion s = _
  unfold execCopyCompletion
  rw [hc]
  dsimp only
  rw [completeCopy_cons s.endAccess errors hj, startNextJob_eq, jobs]

/-! ### The waiters of a job whose source is lost (R81, R159, R162, R175) -/

theorem failWaiters_eq (s : State) (waiters : List SlotRef) : s.failWaiters waiters =
    ((waiters.filter fun k => (s.slot k).inData).foldl (fun x k => x.haltSlot k .dataLost) s).slotReady
      (waiters.filter fun k => !(s.slot k).inData) := rfl

/-! ### A PRIVATE job resolved (Table 4-2) -/

/-- Whether a page names a frame. -/
def State.names (s : State) (p : BackRef) (f : FrameId) : Bool := (s.entry p).any fun e => e.frame = f

theorem names_iff : s.names p f = true ↔ ∃ e, s.entry p = some e ∧ e.frame = f := by
  unfold State.names
  simp [Option.any_eq_true]

/-- A PRIVATE job that gives up its target: the target is released and the page no longer copy-pending (R80). -/
def State.privateBack (s : State) (j : CopyJob) (p : BackRef) : State := (s.letGo j.target).clearCopyPending p

theorem resolvePrivate_eq (s : State) (j : CopyJob) (p : BackRef) (bad : Bool) : s.resolvePrivate j p bad =
    if bad then
      if s.names p j.source then (s.privateBack j p).failWaiters j.waiters else (s.privateBack j p).slotReady j.waiters
    else if s.names p j.source = false ∨ (s.frame j.source).state.refs.length ≤ 1 then
      (s.privateBack j p).slotReady j.waiters
    else
      let detached := s.setFrame j.source
        { s.frame j.source with state := .held ((s.frame j.source).state.refs.erase p) }
      let attached := detached.setFrame j.target { detached.frame j.target with state := .held [p] }
      ((attached.retarget j.target p).clearCopyPending p).slotReady j.waiters := by
  unfold State.resolvePrivate State.privateBack State.names
  rw [letGo_eq_release]
  cases s.entry p <;> rfl

/-- The source lost while the page names it (R81). -/
theorem resolvePrivate_lost (h : s.names p j.source = true) :
    s.resolvePrivate j p true = (s.privateBack j p).failWaiters j.waiters := by
  rw [resolvePrivate_eq, if_pos rfl, if_pos h]

/-- The page no longer names the source, or a sound copy of a page that no other shares (R82, R83). -/
theorem resolvePrivate_back {bad : Bool} (h : s.names p j.source = false ∨
    bad = false ∧ (s.frame j.source).state.refs.length ≤ 1) :
    s.resolvePrivate j p bad = (s.privateBack j p).slotReady j.waiters := by
  rw [resolvePrivate_eq]
  cases bad with
  | true =>
    rcases h with h | ⟨h, _⟩
    · rw [if_pos rfl, h]
      rfl
    · cases h
  | false => exact if_pos (h.imp_right And.right)

theorem setEntry_setEntry (s : State) (p : BackRef) (a b : Option MapEntry) :
    (s.setEntry p a).setEntry p b = s.setEntry p b := by
  unfold State.setEntry
  cases hs : s.space p.1 with
  | none => dsimp only; rw [hs]
  | some r =>
    dsimp only
    rw [space_setSpace_same]
    dsimp only
    unfold State.setSpace
    rw [Vector.set_set, Vector.set_set]

/-- A page made to name a frame and no longer copy-pending. -/
theorem clearCopyPending_retarget (he : s.entry p = some e) (f : FrameId) :
    (s.retarget f p).clearCopyPending p = s.setEntry p (some { e with frame := f, copyPending := false }) := by
  have hset : s.retarget f p = s.setEntry p (some { e with frame := f }) := by
    unfold State.retarget
    rw [he]
  have hentry : (s.setEntry p (some { e with frame := f })).entry p = some { e with frame := f } :=
    (entry_setEntry_of_some he _ p).trans (if_pos rfl)
  rw [hset]
  unfold State.clearCopyPending
  rw [hentry]
  exact setEntry_setEntry ..

/-- A sound copy of a shared page: the page leaves the source's list and holds the target alone (R82). -/
theorem resolvePrivate_given (he : s.entry p = some e) (hf : e.frame = j.source)
    (hshared : 1 < (s.frame j.source).state.refs.length) (hne : j.target ≠ j.source) :
    s.resolvePrivate j p false =
      State.slotReady
        (((s.setFrame j.source
            { s.frame j.source with state := .held ((s.frame j.source).state.refs.erase p) }).setFrame j.target
            { s.frame j.target with state := .held [p] }).setEntry p
          (some { e with frame := j.target, copyPending := false })) j.waiters := by
  have hnames : s.names p j.source = true := names_iff.2 ⟨e, he, hf⟩
  rw [resolvePrivate_eq, if_neg Bool.false_ne_true, if_neg (by rw [hnames]; simpa using hshared)]
  dsimp only
  rw [frame_setFrame_other _ _ _ _ hne, clearCopyPending_retarget ((entry_setFrame ..).trans ((entry_setFrame ..).trans he))]

/-! ### A MOVE job resolved (Table 4-4) -/

/-- The requester answered as the manual's tables say (R91, R112). -/
theorem answerRequester_eq (s : State) (requester : Option (LinkId × Byte)) (status : Status) (f : FrameId) :
    s.answerRequester requester status f = s.tellRequester requester status.code f := by
  rcases requester with _ | ⟨i, tag⟩
  · rfl
  · exact answer_eq_repliedDeferred ..

theorem deferredRelease_eq (s : State) (f : FrameId) :
    s.deferredRelease f = if (s.frame f).state = .held [] then s.letGo f else s := by
  rw [letGo_eq_release]
  rfl

/-- A MOVE that keeps its source: it stops moving, the target is released, the waiters and the requester are told, and
a release that was put off takes place (R21, R89). -/
def State.moveKept (s : State) (j : CopyJob) (requester : Option (LinkId × Byte)) (code : Byte) : State :=
  let y := (((s.clearMoving j.source).letGo j.target).slotReady j.waiters).tellRequester requester code j.source
  if (y.frame j.source).state = .held [] then y.letGo j.source else y

theorem setFrame_comm {f g : FrameId} (h : f ≠ g) (s : State) (a b : FrameRecord) :
    (s.setFrame f a).setFrame g b = (s.setFrame g b).setFrame f a := by
  unfold State.setFrame
  rw [Vector.set_comm _ _ fun e => h (Fin.ext e)]

theorem setFrame_raiseBoth (s : State) (n : Notice) (f : FrameId) (r : FrameRecord) :
    (s.raiseBoth n).setFrame f r = (s.setFrame f r).raiseBoth n := rfl

/-- A retirement does not meet the record of another frame. -/
theorem setFrame_retireFrame {f g : FrameId} (h : f ≠ g) (s : State) (d : Bool) (r : FrameRecord) :
    (s.retireFrame f d).setFrame g r = (s.setFrame g r).retireFrame f d := by
  have hf : (s.setFrame g r).frame f = s.frame f := frame_setFrame_other _ _ _ _ h
  unfold State.retireFrame
  rw [hf, setFrame_raiseBoth, setFrame_comm h]
  rfl

theorem clearMoving_retireFrame {f g : FrameId} (h : f ≠ g) (s : State) (d : Bool) :
    (s.retireFrame f d).clearMoving g = (s.clearMoving g).retireFrame f d := by
  have hg : (s.retireFrame f d).frame g = s.frame g := by rw [frame_retireFrame, if_neg h.symm]
  unfold State.clearMoving
  rw [hg, setFrame_retireFrame h]

/-- A MOVE whose target is poisoned has no usable target (R76). -/
theorem resolvePoisonedTarget_move {requester : Option (LinkId × Byte)} (hk : j.kind = .move requester)
    (hp : (s.frame j.target).poisoned = true) (hne : j.target ≠ j.source) :
    s.resolvePoisonedTarget j = s.moveKept j requester 0x14 := by
  have hp' : ((s.clearMoving j.source).frame j.target).poisoned = true := by
    unfold State.clearMoving
    rwa [frame_setFrame_other _ _ _ _ hne]
  have swap : (s.release j.target).clearMoving j.source = (s.clearMoving j.source).release j.target := by
    unfold State.release
    rw [if_pos hp, if_pos hp']
    exact clearMoving_retireFrame hne s false
  unfold State.resolvePoisonedTarget State.moveKept
  rw [hk]
  dsimp only
  rw [swap, ← letGo_eq_release, answerRequester_eq, deferredRelease_eq]
  rfl

theorem resolveMove_lost (s : State) (j : CopyJob) (requester : Option (LinkId × Byte)) :
    s.resolveMove j requester true = s.moveKept j requester 0x33 := by
  unfold State.resolveMove State.moveKept
  rw [if_pos rfl, ← letGo_eq_release, answerRequester_eq, deferredRelease_eq]
  rfl

/-- The source carried and retired below the limit (R87). -/
theorem resolveMove_retired {requester : Option (LinkId × Byte)} (h : s.scrub.discretionary < 256) :
    s.resolveMove j requester false =
      ((((s.carry j).clearMoving j.source).outOfService j.source true).slotReady j.waiters).tellRequester requester 0x00
        j.source := by
  rw [outOfService_eq_retireFrame]
  exact (if_neg Bool.false_ne_true).trans ((if_pos h).trans (answerRequester_eq ..))

/-- The source carried and released at the limit (R88). -/
theorem resolveMove_limited {requester : Option (LinkId × Byte)} (h : 256 ≤ s.scrub.discretionary) :
    s.resolveMove j requester false =
      ((((s.carry j).setFrame j.source
        { (s.carry j).frame j.source with moving := false, retirePending := false }).letGo j.source).slotReady
          j.waiters).tellRequester requester 0x31 j.source := by
  rw [letGo_eq_release]
  exact (if_neg Bool.false_ne_true).trans ((if_neg (Nat.not_lt.2 h)).trans (answerRequester_eq ..))

/-! ### The job's kind and its target -/

theorem resolveDealt_poisoned (hp : (s.frame j.target).poisoned = true) (bad : Bool) :
    s.resolveDealt j bad = s.resolvePoisonedTarget j := if_pos hp

theorem resolveDealt_private (hk : j.kind = .privateCopy p) (hp : (s.frame j.target).poisoned = false) (bad : Bool) :
    s.resolveDealt j bad = s.resolvePrivate j p bad := by
  unfold State.resolveDealt
  rw [hp, hk]
  rfl

theorem resolveDealt_move {requester : Option (LinkId × Byte)} (hk : j.kind = .move requester)
    (hp : (s.frame j.target).poisoned = false) (bad : Bool) : s.resolveDealt j bad = s.resolveMove j requester bad := by
  unfold State.resolveDealt
  rw [hp, hk]
  rfl

theorem resolvePoisonedTarget_private (hk : j.kind = .privateCopy p) :
    s.resolvePoisonedTarget j = (s.privateBack j p).slotReady j.waiters := by
  unfold State.resolvePoisonedTarget State.privateBack
  rw [hk, letGo_eq_release]

theorem resolveJob_private (hk : j.kind = .privateCopy p) (bad : Bool) : s.resolveJob j bad =
    (if (s.frame j.source).state = .free then s.resolveFree j.source else s).resolveDealt j bad := by
  rw [resolveJob_eq]
  unfold State.freeSourceResolved
  rw [hk]

theorem resolveJob_move {requester : Option (LinkId × Byte)} (hk : j.kind = .move requester) (bad : Bool) :
    s.resolveJob j bad = s.resolveDealt j bad := by
  rw [resolveJob_eq]
  unfold State.freeSourceResolved
  rw [hk]

/-- Settles O52: the waiters of a lost source, one slot halted, and the job's resolution by its kind, its target and its
copy's result. -/
theorem copyCompletes : Obligations.CopyCompletes := by
  refine ⟨fun s waiters => ?_, fun s k t cause ht => ⟨fun hseg => haltSlot_active ht cause hseg,
    fun g hg hslot => haltSlot_waiting ht cause hg hslot⟩, ?_⟩
  · exact failWaiters_eq s waiters
  · intro s j rest a b errors hcur hjobs ended bad then_
    have completes : ∀ {x : State}, ended.resolveJob j (anyUncorrectable errors) = x → then_ x := fun {x} hx => by
      have run := exec_copyCompletion hcur hjobs
      rw [show State.commonEffects { s.endAccess with jobs := rest } .copy errors = ended from rfl, hx] at run
      refine run.trans ?_
      cases rest <;> rfl
    have hbad : bad → anyUncorrectable errors = true := (anyUncorrectable_iff errors).2
    have hgood : ¬bad → anyUncorrectable errors = false := fun h =>
      Bool.eq_false_iff.2 (mt (anyUncorrectable_iff errors).1 h)
    refine ⟨fun p hk => ?_, fun requester hk => ?_⟩
    · intro x names back
      have dealt : ∀ {y : State}, x.resolveDealt j (anyUncorrectable errors) = y → then_ y := fun hy =>
        completes ((resolveJob_private hk _).trans hy)
      have unnamed : ¬names → x.names p j.source = false := fun h => Bool.eq_false_iff.2 (mt names_iff.1 h)
      refine ⟨fun hp => dealt ((resolveDealt_poisoned hp _).trans (resolvePoisonedTarget_private hk)), fun hp => ?_⟩
      have sound : ∀ {y : State}, x.resolvePrivate j p (anyUncorrectable errors) = y → then_ y := fun hy =>
        dealt ((resolveDealt_private hk hp _).trans hy)
      refine ⟨fun hb hn => sound ?_, fun _ hn => sound (resolvePrivate_back (.inl (unnamed hn))), fun hg hn => sound ?_,
        fun e hg he hf hshared hne => sound ?_⟩
      · rw [hbad hb]
        exact resolvePrivate_lost (names_iff.2 hn)
      · exact resolvePrivate_back (hn.imp unnamed fun h => ⟨hgood hg, h⟩)
      · rw [hgood hg]
        exact resolvePrivate_given he hf hshared hne
    · intro kept
      have dealt : ∀ {y : State}, ended.resolveDealt j (anyUncorrectable errors) = y → then_ y := fun hy =>
        completes ((resolveJob_move hk _).trans hy)
      have sound : (ended.frame j.target).poisoned = false → ∀ {y : State},
          ended.resolveMove j requester (anyUncorrectable errors) = y → then_ y := fun hp _ hy =>
        dealt ((resolveDealt_move hk hp _).trans hy)
      refine ⟨fun hp hne => dealt ((resolveDealt_poisoned hp _).trans (resolvePoisonedTarget_move hk hp hne)),
        fun hp hb => sound hp ?_, fun hp hg => ?_⟩
      · rw [hbad hb]
        exact resolveMove_lost ..
      · intro carried
        rw [hgood hg] at sound
        exact ⟨fun h => sound hp (resolveMove_retired h), fun h => sound hp (resolveMove_limited h)⟩

end Sys2Proof.Machine
end

section
/-! THEOREMS. CLONE (R70–R72): its checks in their order, and the pages it makes present on the frames of their sources. -/

namespace Sys2Proof.Machine

variable {s x : State} {i : LinkId} {tag sid did : Byte} {sFirst dFirst count : Nat} {sp dp : SpaceId} {sr dr : SpaceRecord}
  {pairs : List (BackRef × BackRef)}

/-! ### Pages made present on the frames of their sources (R72) -/

/-- The entry of a page just cloned from a page with an entry. -/
def State.clonedEntry (s : State) (q : BackRef) (e : MapEntry) : MapEntry :=
  { frame := e.frame, writeProtect := e.writeProtect, referenced := false, modified := false,
    copyPending := s.privateJobFor q }

/-- A frame's record after pages have joined its list, in order. -/
def FrameRecord.joinedBy (r : FrameRecord) (qs : List BackRef) : FrameRecord :=
  if qs = [] then r else { r with state := .held (r.state.refs ++ qs) }

theorem FrameRecord.joinedBy_cons (r : FrameRecord) (q : BackRef) (qs : List BackRef) :
    (r.joinedBy [q]).joinedBy qs = r.joinedBy (q :: qs) := by
  unfold FrameRecord.joinedBy
  rw [if_neg (List.cons_ne_nil q []), if_neg (List.cons_ne_nil q qs)]
  split
  · next hq => rw [hq]
  · simp [FrameState.refs]

/-- The destination pages whose source page names a frame, in order. -/
def State.joiners (s : State) (pairs : List (BackRef × BackRef)) (f : FrameId) : List BackRef :=
  (pairs.filter fun pq => s.names pq.1 f).map Prod.snd

/-- The pages of some pairs cloned in order. -/
def State.clonePages (s : State) (pairs : List (BackRef × BackRef)) : State :=
  pairs.foldl (fun s (p, q) => s.clonePage p q) s

theorem clonePages_cons (s : State) (p q : BackRef) (pairs : List (BackRef × BackRef)) :
    s.clonePages ((p, q) :: pairs) = (s.clonePage p q).clonePages pairs := rfl

theorem mapsOnly_clonePage (s : State) (p q : BackRef) : s.MapsOnly (s.clonePage p q) := by
  unfold State.clonePage
  split
  · exact .refl s
  · exact (mapsOnly_setFrame ..).trans (mapsOnly_setEntry ..)

theorem mapsOnly_clonePages (s : State) (pairs : List (BackRef × BackRef)) : s.MapsOnly (s.clonePages pairs) :=
  foldl_keeps (fun x : State => s.MapsOnly x) _ pairs (fun _ _ _ hx => hx.trans (mapsOnly_clonePage ..)) s (.refl s)

theorem clonedEntry_clonePage (s : State) (p q u : BackRef) (e : MapEntry) :
    (s.clonePage p q).clonedEntry u e = s.clonedEntry u e := by
  unfold State.clonedEntry State.privateJobFor
  rw [(mapsOnly_clonePage s p q).jobs]

/-- The entry of a source page is not one that a clone makes present. -/
theorem entry_clonePage_source {p q : BackRef} (h : s.Clonable ((p, q) :: pairs)) {u : BackRef} (hu : (s.entry u).isSome) :
    (s.clonePage p q).entry u = s.entry u := by
  obtain ⟨absent, room⟩ := h.dest _ List.mem_cons_self
  rw [entry_clonePage (h.source _ List.mem_cons_self) room, if_neg]
  rintro rfl
  rw [absent] at hu
  cases hu

/-- Each destination page has the entry cloned from its source page, and no other entry changes. -/
theorem entry_clonePages (pairs : List (BackRef × BackRef)) : ∀ s : State, s.Clonable pairs →
    (∀ p q e, (p, q) ∈ pairs → s.entry p = some e → (s.clonePages pairs).entry q = some (s.clonedEntry q e)) ∧
    ∀ u, u ∉ pairs.map Prod.snd → (s.clonePages pairs).entry u = s.entry u := by
  induction pairs with
  | nil => exact fun s _ => ⟨fun _ _ _ h => absurd h List.not_mem_nil, fun _ _ => rfl⟩
  | cons pair rest ih =>
    obtain ⟨p, q⟩ := pair
    intro s h
    obtain ⟨cloned, others⟩ := ih (s.clonePage p q) (clonable_tail h)
    obtain ⟨_, room⟩ := h.dest _ List.mem_cons_self
    have first := entry_clonePage (h.source _ List.mem_cons_self) room
    have hq : q ∉ rest.map Prod.snd := (List.nodup_cons.1 h.nodup).1
    rw [clonePages_cons]
    refine ⟨fun p' q' e hmem he => ?_, fun u hu => ?_⟩
    · rcases List.mem_cons.1 hmem with heq | hmem
      · obtain ⟨rfl, rfl⟩ := Prod.mk.inj heq
        rw [others _ hq, first, if_pos rfl, he]
        rfl
      · have hsource : (s.clonePage p q).entry p' = some e :=
          (entry_clonePage_source h (by rw [he]; rfl)).trans he
        rw [cloned p' q' e hmem hsource, clonedEntry_clonePage]
    · obtain ⟨hne, hu⟩ := not_or.1 (mt List.mem_cons.2 hu)
      rw [others u hu, first, if_neg hne]

theorem names_congr {p : BackRef} (h : x.entry p = s.entry p) (f : FrameId) : x.names p f = s.names p f := by
  unfold State.names
  rw [h]

theorem joiners_cons {p q : BackRef} (h : s.Clonable ((p, q) :: pairs)) (f : FrameId) :
    s.joiners ((p, q) :: pairs) f =
      if s.names p f then q :: (s.clonePage p q).joiners pairs f else (s.clonePage p q).joiners pairs f := by
  have tail : (s.clonePage p q).joiners pairs f = s.joiners pairs f :=
    congrArg (List.map Prod.snd) (List.filter_congr fun pq hpq =>
      names_congr (entry_clonePage_source h (h.source pq (List.mem_cons_of_mem _ hpq))) f)
  rw [tail]
  unfold State.joiners
  rw [List.filter_cons]
  split <;> rfl

/-- Each frame's list takes the destination pages whose source names it, in order. -/
theorem frame_clonePages (pairs : List (BackRef × BackRef)) (f : FrameId) : ∀ s : State, s.Clonable pairs →
    (s.clonePages pairs).frame f = (s.frame f).joinedBy (s.joiners pairs f) := by
  induction pairs with
  | nil => exact fun s _ => rfl
  | cons pair rest ih =>
    obtain ⟨p, q⟩ := pair
    intro s h
    obtain ⟨e, he⟩ := Option.isSome_iff_exists.1 (h.source _ List.mem_cons_self)
    rw [clonePages_cons, ih _ (clonable_tail h), joiners_cons h, frame_clonePage he]
    have named : s.names p f = true ↔ f = e.frame := by
      rw [names_iff]
      simp [he, eq_comm]
    by_cases hf : f = e.frame
    · rw [if_pos hf, if_pos (named.2 hf), ← FrameRecord.joinedBy_cons, hf]
      rfl
    · rw [if_neg hf, if_neg (mt named.1 hf)]

/-! ### The checks (R70, R71) -/

theorem not_allows_iff (r : SpaceRecord) (i : LinkId) (need : Need) : (!r.allows i need) = true ↔ r.rank i < need.rank := by
  rw [Bool.not_eq_true', ← Bool.not_eq_true, allows_iff, Nat.not_le]

/-- A range outside its space, or two ranges of one space that share a page (R70). -/
def CloneOutside (sp dp : SpaceId) (sr dr : SpaceRecord) (sFirst dFirst count : Nat) : Prop :=
  count = 0 ∨ 256 < count ∨ sr.size < sFirst + count ∨ dr.size < dFirst + count ∨
    sp = dp ∧ sFirst < dFirst + count ∧ dFirst < sFirst + count

theorem cloneOutside_iff (sp dp : SpaceId) (sr dr : SpaceRecord) (sFirst dFirst count : Nat) :
    CloneOutside sp dp sr dr sFirst dFirst count ↔
      (!sr.rangeOk sFirst count || !dr.rangeOk dFirst count) = true ∨ sp = dp ∧ overlaps sFirst dFirst count = true := by
  have source : sr.rangeOk sFirst count = true ↔ 1 ≤ count ∧ count ≤ 256 ∧ sFirst + count ≤ sr.size := decide_eq_true_iff
  have dest : dr.rangeOk dFirst count = true ↔ 1 ≤ count ∧ count ≤ 256 ∧ dFirst + count ≤ dr.size := decide_eq_true_iff
  have shared : overlaps sFirst dFirst count = true ↔ sFirst < dFirst + count ∧ dFirst < sFirst + count :=
    decide_eq_true_iff
  unfold CloneOutside
  rw [Bool.or_eq_true, Bool.not_eq_true', Bool.not_eq_true', ← Bool.not_eq_true, ← Bool.not_eq_true, source, dest, shared]
  by_cases hsp : sp = dp
  · simp only [hsp, true_and]
    omega
  · simp only [hsp, false_and, or_false]
    omega

theorem ranges_of_inside (h : ¬CloneOutside sp dp sr dr sFirst dFirst count) :
    sFirst + count ≤ sr.size ∧ dFirst + count ≤ dr.size := by
  unfold CloneOutside at h
  simp only [not_or, Nat.not_lt] at h
  obtain ⟨_, _, hsource, hdest, _⟩ := h
  exact ⟨hsource, hdest⟩

theorem cloneChecks_badId (h : (sid = 0 ∨ 16 < sid.toNat) ∨ (did = 0 ∨ 16 < did.toNat)) :
    s.cloneChecks i sid sFirst did dFirst count = .error .range := by
  unfold State.cloneChecks
  rcases h with h | h
  · rw [space?_eq_none h]
  · rw [space?_eq_none h]
    cases space? sid <;> rfl

/-- The pages that CLONE goes on to, its ids, its rights and its ranges being good (R70). -/
def State.clonePairs (s : State) (sources dests : List BackRef) : Except Status (List (BackRef × BackRef)) :=
  if sources.any fun p => !s.present? p then .error .notMapped
  else if dests.any s.present? then .error .exists
  else if (sources.filterMap s.frameOf).any fun f =>
      64 < (s.frame f).shareCount + (sources.filterMap s.frameOf).count f then .error .shareLimit
  else .ok (sources.zip dests)

section Named

variable (hs : sid.toNat = sp.val + 1) (hd : did.toNat = dp.val + 1)

include hs hd

theorem cloneChecks_absent (h : s.space sp = none ∨ s.space dp = none) :
    s.cloneChecks i sid sFirst did dFirst count = .error .noSuchSpace := by
  unfold State.cloneChecks
  rw [space?_eq_some hs, space?_eq_some hd]
  dsimp only
  rcases h with h | h
  · rw [h]
  · rw [h]
    cases s.space sp <;> rfl

variable (hsr : s.space sp = some sr) (hdr : s.space dp = some dr)

include hsr hdr

theorem cloneChecks_live : s.cloneChecks i sid sFirst did dFirst count =
    if !sr.allows i .read then .error .access
    else if !dr.allows i .write then .error .access
    else if !sr.rangeOk sFirst count || !dr.rangeOk dFirst count then .error .range
    else if sp = dp ∧ overlaps sFirst dFirst count then .error .range
    else s.clonePairs (rangePages sp sFirst count) (rangePages dp dFirst count) := by
  unfold State.cloneChecks
  rw [space?_eq_some hs, space?_eq_some hd]
  dsimp only
  rw [hsr, hdr]
  dsimp only
  rw [pagesFrom_eq, pagesFrom_eq]
  rfl

theorem cloneChecks_noRight (h : sr.rank i < 1 ∨ dr.rank i < 2) :
    s.cloneChecks i sid sFirst did dFirst count = .error .access := by
  rw [cloneChecks_live hs hd hsr hdr]
  by_cases hr : sr.rank i < 1
  · exact if_pos ((not_allows_iff sr i .read).2 hr)
  · rw [if_neg (mt (not_allows_iff sr i .read).1 hr)]
    exact if_pos ((not_allows_iff dr i .write).2 (h.resolve_left hr))

variable (hr : 1 ≤ sr.rank i) (hw : 2 ≤ dr.rank i)

include hr hw

theorem cloneChecks_outside (h : CloneOutside sp dp sr dr sFirst dFirst count) :
    s.cloneChecks i sid sFirst did dFirst count = .error .range := by
  rw [cloneChecks_live hs hd hsr hdr, if_neg (mt (not_allows_iff sr i .read).1 (Nat.not_lt.2 hr)),
    if_neg (mt (not_allows_iff dr i .write).1 (Nat.not_lt.2 hw))]
  rcases (cloneOutside_iff ..).1 h with hbad | hover
  · exact if_pos hbad
  · rw [if_pos hover, ite_self]

theorem cloneChecks_inside (h : ¬CloneOutside sp dp sr dr sFirst dFirst count) :
    s.cloneChecks i sid sFirst did dFirst count =
      s.clonePairs (rangePages sp sFirst count) (rangePages dp dFirst count) := by
  obtain ⟨hranges, hover⟩ := not_or.1 (mt (cloneOutside_iff ..).2 h)
  rw [cloneChecks_live hs hd hsr hdr, if_neg (mt (not_allows_iff sr i .read).1 (Nat.not_lt.2 hr)),
    if_neg (mt (not_allows_iff dr i .write).1 (Nat.not_lt.2 hw)), if_neg hranges, if_neg hover]

end Named

/-! ### The pages of the two ranges (R71) -/

section Pages

variable {sources dests : List BackRef}

/-- The number of pages that name a frame is the number of times the frame is named. -/
theorem count_frameOf (s : State) (pages : List BackRef) (f : FrameId) :
    (pages.filterMap s.frameOf).count f = pages.countP fun p => s.names p f := by
  rw [List.count_filterMap]
  refine List.countP_congr fun p _ => ?_
  rw [names_iff, ← frameOf_eq_some]
  exact beq_iff_eq

theorem any_absent : (sources.any fun p => !s.present? p) = true ↔ ∃ p ∈ sources, s.entry p = none := by
  simp [State.present?, List.any_eq_true]

theorem any_present : dests.any s.present? = true ↔ ∃ p ∈ dests, s.entry p ≠ none := by
  simp [State.present?, List.any_eq_true, Option.isSome_iff_ne_none]

/-- A frame that the source pages name and that has no room for as many more pages (R71). -/
theorem any_overshared :
    ((sources.filterMap s.frameOf).any fun f =>
      64 < (s.frame f).shareCount + (sources.filterMap s.frameOf).count f) = true ↔
    ∃ f, 0 < (sources.countP fun p => s.names p f) ∧
      64 < (s.frame f).state.refs.length + sources.countP fun p => s.names p f := by
  simp only [List.any_eq_true, decide_eq_true_eq, ← count_frameOf, List.count_pos_iff]
  rfl

theorem clonePairs_notMapped (h : ∃ p ∈ sources, s.entry p = none) : s.clonePairs sources dests = .error .notMapped :=
  if_pos (any_absent.2 h)

variable (hs : ∀ p ∈ sources, s.entry p ≠ none)

include hs

theorem clonePairs_exists (h : ∃ p ∈ dests, s.entry p ≠ none) : s.clonePairs sources dests = .error .exists := by
  have mapped : ¬∃ p ∈ sources, s.entry p = none := fun ⟨p, hp, he⟩ => hs p hp he
  exact (if_neg (mt any_absent.1 mapped)).trans (if_pos (any_present.2 h))

variable (hd : ∀ p ∈ dests, s.entry p = none)

include hd

theorem clonePairs_free : s.clonePairs sources dests =
    if (sources.filterMap s.frameOf).any fun f =>
      64 < (s.frame f).shareCount + (sources.filterMap s.frameOf).count f then .error .shareLimit
    else .ok (sources.zip dests) := by
  have mapped : ¬∃ p ∈ sources, s.entry p = none := fun ⟨p, hp, he⟩ => hs p hp he
  have absent : ¬∃ p ∈ dests, s.entry p ≠ none := fun ⟨p, hp, he⟩ => he (hd p hp)
  exact (if_neg (mt any_absent.1 mapped)).trans (if_neg (mt any_present.1 absent))

theorem clonePairs_overshared (h : ∃ f, 0 < (sources.countP fun p => s.names p f) ∧
    64 < (s.frame f).state.refs.length + sources.countP fun p => s.names p f) :
    s.clonePairs sources dests = .error .shareLimit := by
  rw [clonePairs_free hs hd, if_pos (any_overshared.2 h)]

theorem clonePairs_ok (h : ∀ f, 0 < (sources.countP fun p => s.names p f) →
    (s.frame f).state.refs.length + (sources.countP fun p => s.names p f) ≤ 64) :
    s.clonePairs sources dests = .ok (sources.zip dests) := by
  rw [clonePairs_free hs hd]
  refine if_neg (mt any_overshared.1 ?_)
  rintro ⟨f, hpos, hlimit⟩
  exact absurd (h f hpos) (Nat.not_le.2 hlimit)

end Pages

/-! ### CLONE -/

theorem length_rangePages (sp : SpaceId) {first n : Nat} (h : first + n ≤ 256) : (rangePages sp first n).length = n := by
  rw [← pagesFrom_eq]
  unfold pagesFrom
  rw [List.length_filterMap_eq_countP, List.countP_eq_length.2, List.length_range]
  intro k hk
  have hlt : first + k < 256 := by have := List.mem_range.1 hk; omega
  unfold page?
  rw [dif_pos hlt]
  rfl

/-- Pages in pairs with as many others: a frame is named by none of them exactly where no page joins its list. -/
theorem joiners_eq_nil {sources dests : List BackRef} (hlen : sources.length ≤ dests.length) (f : FrameId) :
    s.joiners (sources.zip dests) f = [] ↔ (sources.countP fun p => s.names p f) = 0 := by
  have named : (sources.countP fun p => s.names p f) = (sources.zip dests).countP fun pq => s.names pq.1 f := by
    conv_lhs => rw [← List.map_fst_zip hlen]
    exact List.countP_map
  unfold State.joiners
  rw [named, List.map_eq_nil_iff, List.countP_eq_length_filter, List.length_eq_zero_iff]

theorem joiners_heard (s : State) (i : LinkId) (pairs : List (BackRef × BackRef)) (f : FrameId) :
    (s.heard i).joiners pairs f = s.joiners pairs f :=
  congrArg (List.map Prod.snd) (List.filter_congr fun _ _ => names_congr (entry_heard ..) f)

theorem cloneChecks_heard (s : State) (i j : LinkId) (source : Byte) (sFirst : Nat) (dest : Byte) (dFirst count : Nat) :
    (s.heard i).cloneChecks j source sFirst dest dFirst count = s.cloneChecks j source sFirst dest dFirst count := by
  have present : (s.heard i).present? = s.present? := funext fun p => by
    unfold State.present?
    rw [entry_heard]
  have frames : (s.heard i).frameOf = s.frameOf := funext fun p => by
    unfold State.frameOf
    rw [entry_heard]
  unfold State.cloneChecks
  simp only [space_heard, frame_heard, present, frames]

theorem serveClone_refused {st : Status} (h : s.cloneChecks i sid sFirst did dFirst count = .error st) :
    serveClone i tag sid sFirst did dFirst count s = s.reply i .clone tag [st.code, 0, 0] := by
  unfold serveClone
  rw [h]

theorem serveClone_ok (h : s.cloneChecks i sid sFirst did dFirst count = .ok pairs) :
    serveClone i tag sid sFirst did dFirst count s = (s.clonePages pairs).reply i .clone tag (0x00 :: be16 count) := by
  unfold serveClone
  rw [h]
  rfl

theorem exec_clone (h : s.Ready i tag) (sid a b did c d e f : Byte) :
    exec (.clone i tag [sid, a, b, did, c, d, e, f]) s =
      .next (serveClone i tag sid (nat16 a b) did (nat16 c d) (nat16 e f) (s.heard i)).finish :=
  congrArg _ (Ready_immediate h .clone [sid, a, b, did, c, d, e, f] rfl rfl)

/-- A request that changes frame records and page maps alone ends with the transmitters. -/
theorem Ready_mapsOnly (h : s.Ready i tag) (hx : (s.heard i).MapsOnly x) (k : RequestKind) (payload : List Byte) :
    (x.reply i k tag payload).finish = (x.answered i k.code tag payload).settle := by
  refine Stable_finish h.stable ?_ fun j => ?_
  · rw [reply_arbiter, hx.arbiter, heard_arbiter]
  · rw [canTake_reply, hx.link, canTake_heard]

/-- Settles O38: the checks in their order, and the pages cloned pair by pair. -/
theorem cloneShares : Obligations.CloneShares := by
  intro s i tag sid a b did c d e f h sFirst dFirst count clone answer bad
  have run : exec clone s = .next (serveClone i tag sid sFirst did dFirst count (s.heard i)).finish :=
    exec_clone h sid a b did c d e f
  have refused : ∀ {st : Status}, s.cloneChecks i sid sFirst did dFirst count = .error st → answer st.code := fun hst =>
    Ready_answers h .clone run (serveClone_refused ((cloneChecks_heard ..).trans hst))
  refine ⟨fun hbad => refused (cloneChecks_badId hbad), fun sp dp hs hd => ⟨fun habsent =>
    refused (cloneChecks_absent hs hd habsent), fun sr dr hsr hdr => ⟨fun hright =>
    refused (cloneChecks_noRight hs hd hsr hdr hright), fun hr hw => ?_⟩⟩⟩
  intro outside sources dests uses
  have inside : ¬outside → s.cloneChecks i sid sFirst did dFirst count = s.clonePairs sources dests :=
    cloneChecks_inside hs hd hsr hdr hr hw
  refine ⟨fun hout => refused (cloneChecks_outside hs hd hsr hdr hr hw hout), fun hin hnone =>
    refused ((inside hin).trans (clonePairs_notMapped hnone)), fun hin hsome hexists =>
    refused ((inside hin).trans (clonePairs_exists hsome hexists)), fun hin hsome habsent => ⟨fun hover =>
    refused ((inside hin).trans (clonePairs_overshared hsome habsent hover)), fun hroom hsize hdsize => ?_⟩⟩
  have checked : (s.heard i).cloneChecks i sid sFirst did dFirst count = .ok (sources.zip dests) :=
    (cloneChecks_heard ..).trans ((inside hin).trans (clonePairs_ok hsome habsent hroom))
  have clonable := cloneChecks_clonable checked
  have only := mapsOnly_clonePages (s.heard i) (sources.zip dests)
  obtain ⟨cloned, others⟩ := entry_clonePages _ _ clonable
  obtain ⟨hsfit, hdfit⟩ := ranges_of_inside hin
  have lengths : sources.length = dests.length :=
    (length_rangePages sp (hsfit.trans hsize)).trans (length_rangePages dp (hdfit.trans hdsize)).symm
  refine ⟨_, ?_, only.rest, fun p q en hmem hen => ?_, fun q hq => ?_, fun g => ?_, fun tp => ?_⟩
  · rw [run, serveClone_ok checked, Ready_mapsOnly h only .clone]
    rfl
  · rw [cloned p q en hmem ((entry_heard ..).trans hen)]
    unfold State.clonedEntry State.privateJobFor
    rw [heard_jobs]
  · rw [others q (by rwa [List.map_snd_zip lengths.ge]), entry_heard]
  · rw [frame_clonePages _ g _ clonable, frame_heard, joiners_heard]
    unfold FrameRecord.joinedBy
    simp only [joiners_eq_nil lengths.le]
    rfl
  · rw [only.shape, space_heard]

end Sys2Proof.Machine
end

section
/-! THEOREMS. CHECK taken, the walk's visits, and the next work of the check engine (R94–R97, R106, R107). -/

namespace Sys2Proof.Machine

variable {s t x : State} {f : FrameId} {i : LinkId} {tag : Byte}

/-! ### The end of an event that presents a whole-frame access -/

/-- Where at most one whole-frame client presents an access, the step ends with its first event. -/
theorem finish_of_presented {c : Client} (h : s.Stable) (hc : ∀ i, c ≠ .dataPath i) (hx : x.arbiter = s.arbiter)
    (ha : t.arbiter = (x.present c).arbiter ∨ t.arbiter = x.arbiter)
    (ht : ∀ j, (t.link j).canTake = (s.link j).canTake) : t.finish = t.endEvent := by
  have current : t.arbiter.current = s.arbiter.current := by
    rcases ha with ha | ha <;> simp [ha, hx]
  have waiting : ∀ d ∈ t.arbiter.waiting, d ∈ s.arbiter.waiting ∨ d = c := fun d hd => by
    rw [← hx]
    rcases ha with ha | ha
    · exact (mem_present_waiting x c d).1 (ha ▸ hd)
    · exact .inl (ha ▸ hd)
  have store : t.arbiter.current.isSome = true ∨ ∀ d ∈ t.arbiter.waiting, ∀ i, d ≠ .dataPath i := by
    rw [current]
    refine h.store.imp_right fun hnil d hd => ?_
    rw [(waiting d hd).resolve_left (by rw [hnil]; exact List.not_mem_nil)]
    exact hc
  refine finish_of_taken t fun j => ?_
  unfold State.endEvent
  rw [link_settle, settle_canTake, arbitrate_link 6 j t store, ht, h.taken j]

/-- An event of a part at rest that leaves the arbiter and both links as they were does nothing more. -/
theorem Stable_finish_unchanged (h : s.Stable) (ha : t.arbiter = s.arbiter) (hl : ∀ j, t.link j = s.link j) :
    t.finish = t := by
  have settled : ∀ j, (t.link j).settle = t.link j := fun j => by rw [hl]; exact h.settled j
  rw [Stable_finish h ha fun j => by rw [hl]]
  exact eq_of_links _ _ (settled .link0) (settled .link1) rfl

/-! ### The frames that a visit or a CHECK checks (R96, R106) -/

theorem checkable_iff (r : FrameRecord) : r.checkable = true ↔ r.state = .free ∨ r.state.isHeld = true := by
  unfold FrameRecord.checkable
  cases r.state <;> simp [FrameState.isHeld]

theorem visited_iff (r : FrameRecord) :
    r.visited = true ↔ r.state = .free ∨ (r.state.isHeld = true ∧ r.moving = false) := by
  unfold FrameRecord.visited
  cases r.state <;> simp [FrameState.isHeld]

/-! ### The next work (R94, R107) -/

@[simp] theorem answer_scrub (s : State) (i : LinkId) (k : DeferredKind) (tag : Byte) (p : List Byte) :
    (s.answer i k tag p).scrub = s.scrub := (enqueue_scrub ..).trans (onLink_scrub ..)

/-- A CHECK answered STATE: the frame and its state, the other fields 0 (R107, R196). -/
theorem answerCheckState_eq (s : State) (q : FrameRequest) : s.answerCheckState q =
    s.repliedDeferred q.link 0x32 q.tag ([0x18] ++ be16 q.frame.val ++ [0, 0, 0, (s.frame q.frame).state.code, 0]) :=
  answer_eq_repliedDeferred ..

/-- The engine set to work, its check presented if none waits already. -/
theorem startCheck_eq (s : State) (f : FrameId) (work : CheckWork) : s.startCheck f work =
    { s with
      scrub := { s.scrub with engine := .busy f work }
      arbiter := if .scrubber ∈ s.arbiter.waiting then s.arbiter
        else { s.arbiter with waiting := s.arbiter.waiting ++ [.scrubber] } } := by
  unfold State.startCheck State.present
  dsimp only
  split <;> rfl

theorem startCheck_arbiter (s : State) (f : FrameId) (work : CheckWork) :
    (s.startCheck f work).arbiter = (s.present .scrubber).arbiter := by
  rw [startCheck_eq]
  unfold State.present
  split <;> rfl

theorem canTake_startCheck (s : State) (f : FrameId) (work : CheckWork) (j : LinkId) :
    ((s.startCheck f work).link j).canTake = (s.link j).canTake := by
  rw [startCheck_eq]
  cases j <;> rfl

theorem takeWork_busy (h : s.scrub.engine ≠ .idle) : s.takeWork = s := if_pos h

theorem takeWork_empty (h : s.scrub.engine = .idle) (hq : s.scrub.checkQueue = []) :
    s.takeWork = if s.scrub.walkTimer = .due then s.walkVisit else s := by
  unfold State.takeWork State.nextWork
  rw [if_neg (not_not_intro h), hq]

section Queue

variable {q : FrameRequest} {rest : List FrameRequest} (h : s.scrub.engine = .idle) (hq : s.scrub.checkQueue = q :: rest)

include h hq

theorem takeWork_serves (hc : (s.frame q.frame).checkable = true) :
    s.takeWork = s.startCheck q.frame (.request q.link q.tag) := by
  unfold State.takeWork State.nextWork
  rw [if_neg (not_not_intro h), hq]
  exact if_pos hc

theorem takeWork_answers (hc : ¬(s.frame q.frame).checkable = true) : s.takeWork =
    (State.answerCheckState { s with scrub := { s.scrub with checkQueue := rest } } q).takeWork := by
  have left : (State.answerCheckState { s with scrub := { s.scrub with checkQueue := rest } } q).scrub.checkQueue = rest :=
    congrArg Scrubber.checkQueue (answer_scrub ..)
  conv_lhs => unfold State.takeWork State.nextWork
  rw [if_neg (not_not_intro h), hq]
  refine (if_neg hc).trans ?_
  unfold State.takeWork
  rw [left, List.length_cons]

end Queue

/-! ### A walk visit (R95–R97) -/

/-- Whether a visit checks the frame at the cursor (R96). -/
abbrev State.VisitChecks (s : State) : Prop :=
  (s.frame s.scrub.cursor).state = .free ∨
    ((s.frame s.scrub.cursor).state.isHeld = true ∧ (s.frame s.scrub.cursor).moving = false)

/-- The part after a walk visit but for the notice of a wrap: a check presented, or a skip that starts the timer again;
the cursor advanced, and a wrap counted (R95–R97). -/
def State.cursorVisited (s : State) : State :=
  { s with
    scrub := { s.scrub with
      walkTimer := if s.VisitChecks then .stopped else if s.scrub.interval = 0 then .stopped else .running
      engine := if s.VisitChecks then .busy s.scrub.cursor .walk else .idle
      cursor := if s.scrub.cursor.val = 4095 then 0 else s.scrub.cursor + 1
      passCount := if s.scrub.cursor.val = 4095 then s.scrub.passCount + 1 else s.scrub.passCount }
    arbiter := if s.VisitChecks ∧ .scrubber ∉ s.arbiter.waiting
      then { s.arbiter with waiting := s.arbiter.waiting ++ [.scrubber] } else s.arbiter }

/-- A visit's event: SCRUB_PASS is raised on both links at the wrap (R97). -/
def State.visitMade (s : State) : State :=
  if s.scrub.cursor.val = 4095 then s.cursorVisited.raiseBoth (.scrubPass (s.scrub.passCount + 1)) else s.cursorVisited

/-- The cursor advanced, the notice of a wrap apart (R96, R97). -/
theorem advanceCursor_eq (s : State) : s.advanceCursor =
    let advanced : State := { s with scrub := { s.scrub with
      cursor := if s.scrub.cursor.val = 4095 then 0 else s.scrub.cursor + 1
      passCount := if s.scrub.cursor.val = 4095 then s.scrub.passCount + 1 else s.scrub.passCount } }
    if s.scrub.cursor.val = 4095 then advanced.raiseBoth (.scrubPass (s.scrub.passCount + 1)) else advanced := by
  have wraps : s.scrub.cursor = Fin.last 4095 ↔ s.scrub.cursor.val = 4095 := Fin.ext_iff
  unfold State.advanceCursor
  by_cases hw : s.scrub.cursor.val = 4095
  · rw [if_pos (wraps.2 hw)]
    simp only [hw, if_true]
  · rw [if_neg (mt wraps.1 hw)]
    simp only [hw, if_false]

theorem walkVisit_eq (h : s.scrub.engine = .idle) : s.walkVisit = s.visitMade := by
  unfold State.walkVisit
  dsimp only
  by_cases hv : s.VisitChecks
  · rw [if_pos ((visited_iff _).2 hv), advanceCursor_eq, startCheck_eq]
    by_cases hs : Client.scrubber ∈ s.arbiter.waiting <;> simp [State.visitMade, State.cursorVisited, hv, hs]
  · rw [if_neg (mt (visited_iff _).1 hv), advanceCursor_eq]
    simp [State.visitMade, State.cursorVisited, hv, h, Scrubber.restartedTimer]

/-- A visit presents at most a check, and takes no message. -/
theorem visitMade_arbiter (s : State) :
    s.visitMade.arbiter = (s.present .scrubber).arbiter ∨ s.visitMade.arbiter = s.arbiter := by
  have visited : s.visitMade.arbiter = s.cursorVisited.arbiter := by
    unfold State.visitMade
    split
    · exact raiseBoth_arbiter ..
    · rfl
  rw [visited, present_eq_withArbiter]
  by_cases hv : s.VisitChecks
  · exact .inl (by simp only [State.cursorVisited, State.withArbiter, hv, true_and])
  · exact .inr (if_neg fun h => hv h.1)

theorem canTake_visitMade (s : State) (j : LinkId) : (s.visitMade.link j).canTake = (s.link j).canTake := by
  have visited : (s.cursorVisited.link j).canTake = (s.link j).canTake := by cases j <;> rfl
  unfold State.visitMade
  split
  · exact (canTake_raiseBoth ..).trans visited
  · exact visited

theorem exec_walkTimerExpiry (h : s.scrub.walkTimer = .running) : exec .walkTimerExpiry s =
    .next (State.takeWork { s with scrub := { s.scrub with walkTimer := .due } }).finish :=
  congrArg Host.Outcome.next (if_pos h)

/-- Settles O49: a visit that falls due waits or is made, and the engine's next work is the head CHECK entry or a due visit. -/
theorem scrubberWorks : Obligations.ScrubberWorks := by
  refine ⟨fun s hs ht => ?_, fun s => ⟨takeWork_busy, fun he => ⟨takeWork_empty he, fun q rest hq => ?_⟩⟩⟩
  · let due : State := { s with scrub := { s.scrub with walkTimer := .due } }
    have run : exec .walkTimerExpiry s = .next due.takeWork.finish := exec_walkTimerExpiry ht
    refine ⟨fun he => ?_, fun he => ?_⟩
    · rw [run, takeWork_busy (s := due) he]
      exact congrArg _ (Stable_finish_unchanged hs rfl fun j => by cases j <;> rfl)
    · have visit : due.takeWork = due.visitMade :=
        ((takeWork_empty (s := due) he (hs.idleEngine he).1).trans (if_pos rfl)).trans (walkVisit_eq he)
      rw [run, visit, finish_of_presented (x := due) (c := .scrubber) hs nofun rfl (visitMade_arbiter due) fun j =>
        (canTake_visitMade due j).trans (by cases j <;> rfl)]
      rfl
  · intro st
    refine ⟨fun hc => ?_, fun hc => ?_⟩
    · rw [takeWork_serves he hq ((checkable_iff _).2 hc), startCheck_eq]
    · rw [takeWork_answers he hq (mt (checkable_iff _).1 hc), answerCheckState_eq]
      rfl

/-! ### CHECK taken (R94, R106) -/

theorem exec_check (h : s.Ready i tag) (hd : (s.link i).deferred.length < 4) (a b : Byte) : exec (.check i tag [a, b]) s =
    .next (serveCheck i tag (nat16 a b) ((s.heard i).deferredPending i .check tag)).finish :=
  congrArg _ (Ready_request h .check [a, b] rfl (Or.inr hd))

@[simp] theorem frame_deferredPending (s : State) (i : LinkId) (d : DeferredKind) (tag : Byte) (f : FrameId) :
    (s.deferredPending i d tag).frame f = s.frame f := frame_onLink ..

theorem serveCheck_range {n : Nat} (h : 4096 ≤ n) :
    serveCheck i tag n s = s.answer i .check tag (0x17 :: be16 n ++ [0, 0, 0, 0, 0]) := by
  unfold serveCheck
  rw [frame?_eq_none h]
  rfl

section Named

variable {n : Nat} (hf : f.val = n)

include hf

theorem serveCheck_state (hc : ¬(s.frame f).checkable = true) :
    serveCheck i tag n s = s.answerCheckState ⟨i, tag, f⟩ := by
  unfold serveCheck
  rw [frame?_eq_some hf]
  exact if_neg hc

theorem serveCheck_joins (hc : (s.frame f).checkable = true) : serveCheck i tag n s =
    State.takeWork { s with scrub := { s.scrub with checkQueue := s.scrub.checkQueue ++ [⟨i, tag, f⟩] } } := by
  unfold serveCheck
  rw [frame?_eq_some hf]
  exact if_pos hc

end Named

/-- Settles O47: RANGE, STATE, or the CHECK queue's tail, whose entry an idle engine serves since no other waits. -/
theorem checkJoinsQueue : Obligations.CheckJoinsQueue := by
  intro s i tag a b h hd check
  let accepted : State := (s.heard i).deferredPending i .check tag
  have scrub : accepted.scrub = s.scrub := by simp [accepted]
  have arbiter : accepted.arbiter = s.arbiter := by simp [accepted]
  have frame : ∀ f, accepted.frame f = s.frame f := fun f => by simp [accepted]
  have run : exec check s = .next (serveCheck i tag (nat16 a b) accepted).finish := exec_check h hd a b
  refine ⟨fun hn => ?_, fun f hf => ?_⟩
  · rw [run, serveCheck_range hn, be16_nat16]
    exact congrArg _ (Ready_answer h .check _)
  · intro st entry queued
    have field : be16 f.val = [a, b] := hf ▸ be16_nat16 a b
    have taken : ∀ j, (queued.link j).canTake = (s.link j).canTake := fun j => by
      refine Eq.trans ?_ ((canTake_deferredPending (s.heard i) i j .check tag).trans (canTake_heard ..))
      cases j <;> rfl
    have joined : st = .free ∨ st.isHeld = true → exec check s = .next queued.takeWork.finish := fun hc => by
      rw [run, serveCheck_joins hf (by rw [frame]; exact (checkable_iff _).2 hc), scrub]
    refine ⟨fun hs => ?_, fun hc hbusy => ?_, fun hc hidle => ?_⟩
    · have unchecked : ¬(accepted.frame f).checkable = true := by
        rw [frame, checkable_iff]
        rcases hs with hs | hs | hs <;> simp [show (s.frame f).state = _ from hs, FrameState.isHeld]
      rw [run, serveCheck_state hf unchecked]
      unfold State.answerCheckState
      rw [frame, field]
      exact congrArg _ (Ready_answer h .check _)
    · rw [joined hc, takeWork_busy (s := queued) hbusy]
      exact congrArg _ (Stable_finish h.stable arbiter taken)
    · have queue : queued.scrub.checkQueue = [entry] := by
        change s.scrub.checkQueue ++ [entry] = _
        rw [(h.stable.idleEngine hidle).1, List.nil_append]
      have checked : ((queued.frame f).checkable) = true :=
        (congrArg FrameRecord.checkable (frame f)).trans ((checkable_iff _).2 hc)
      rw [joined hc, takeWork_serves (s := queued) (q := entry) hidle queue checked,
        finish_of_presented (x := queued) (c := .scrubber) h.stable nofun arbiter (.inl (startCheck_arbiter ..)) fun j =>
          (canTake_startCheck ..).trans (taken j), startCheck_eq, ← queue, show queued.arbiter = s.arbiter from arbiter]

end Sys2Proof.Machine
end

section
/-! THEOREMS. The completion of a check (R95, R98–R101, R107), and a MOVE job made for a frame (R36, R76, R85). -/

namespace Sys2Proof.Machine

variable {s : State} {f target : FrameId} {rest : List FrameId}

/-! ### A MOVE job made (R36, R76, R85) -/

/-- The part with a MOVE job made for a frame on the head of the free queue: the frame moves, the head is its TARGET, and
the fall of the free count is examined. -/
def State.moveMade (s : State) (f target : FrameId) (rest : List FrameId) (requester : Option (LinkId × Byte)) : State :=
  { (((s.freeFalls rest).setFrame f { s.frame f with moving := true }).setFrame target
      { s.frame target with state := .target }) with
    jobs := s.jobs ++ [{ kind := .move requester, source := f, target := target, waiters := [],
                         phase := if s.jobs = [] then .copying else .queued }]
    arbiter := if s.jobs = [] ∧ .copyEngine ∉ s.arbiter.waiting
      then { s.arbiter with waiting := s.arbiter.waiting ++ [.copyEngine] } else s.arbiter }

/-- The fall of the free count reads neither the records nor the jobs nor the arbiter. -/
theorem freeFalls_others (s : State) (queue rest : List FrameId) (frames : Vector FrameRecord 4096) (jobs : List CopyJob)
    (a : Arbiter) :
    State.freeFalls { s with freeQueue := queue, frames := frames, jobs := jobs, arbiter := a } rest =
      { s.freeFalls rest with frames := frames, jobs := jobs, arbiter := a } := by
  unfold State.freeFalls
  dsimp only
  split <;> rfl

theorem freeFalls_frames (s : State) (rest : List FrameId) : (s.freeFalls rest).frames = s.frames := by
  rw [freeFalls_eq_examineFall]
  exact setSupply_frames ..

theorem makeMove_eq (hq : s.freeQueue = target :: rest) (hne : target ≠ f) (requester : Option (LinkId × Byte)) :
    s.makeMove f requester = s.moveMade f target rest requester := by
  have other : (s.setFrame f { s.frame f with moving := true }).frame target = s.frame target :=
    frame_setFrame_other _ _ _ _ hne
  unfold State.makeMove
  rw [makeJob_eq ((setFrame_freeQueue ..).trans hq), State.jobMade]
  refine (freeFalls_others s ..).trans ?_
  unfold State.moveMade State.setFrame
  rw [freeFalls_frames, ← other]
  rfl

/-- The first refusal of a MOVE job (R85). -/
theorem moveRefusal?_sound (hh : (s.frame f).state.isHeld = true) (hp : (s.frame f).poisoned = false)
    (hm : (s.frame f).moving = false) : s.moveRefusal? f =
      if 8 ≤ s.jobs.length then some .busy else if s.freeQueue = [] then some .noFrame else none := by
  unfold State.moveRefusal?
  simp only [hh, hp, hm]
  rfl

/-! ### The consequence (Table 5-2) -/

/-- The cases in which a check of a HELD frame leads to a retirement (R100). -/
abbrev FrameRecord.MovePending (r : FrameRecord) : Prop :=
  r.state.isHeld = true ∧ r.poisoned = false ∧ r.moving = false ∧ r.retirePending = true

theorem consequence_unused (h : (s.frame f).state = .clearing ∨ (s.frame f).state = .target) : s.consequence f = s := by
  unfold State.consequence
  dsimp only
  rcases h with h | h <;> rw [h]

theorem consequence_retired (h : (s.frame f).state = .retired) :
    s.consequence f = s.setFrame f { s.frame f with retirePending := false } := by
  unfold State.consequence
  dsimp only
  rw [h]

theorem consequence_of_held (hh : (s.frame f).state.isHeld = true) : s.consequence f =
    if (s.frame f).MovePending then
      if s.scrub.discretionary < 256 then if s.moveRefusal? f = none then s.makeMove f none else s
      else s.setFrame f { s.frame f with retirePending := false }
    else s := by
  have pending : (s.frame f).MovePending ↔
      ¬((s.frame f).poisoned = true ∨ (s.frame f).retirePending = false ∨ (s.frame f).moving = true) := by
    simp [FrameRecord.MovePending, hh, and_comm]
  rw [if_congr pending rfl rfl, ite_not]
  unfold State.consequence
  dsimp only
  rw [held_refs_of_isHeld hh]
  rfl

theorem consequence_held (hh : (s.frame f).state.isHeld = true) (hn : ¬(s.frame f).MovePending) : s.consequence f = s :=
  (consequence_of_held hh).trans (if_neg hn)

theorem consequence_pending (h : (s.frame f).MovePending) : s.consequence f =
    if s.scrub.discretionary < 256 then
      if 8 ≤ s.jobs.length ∨ s.freeQueue = [] then s else s.makeMove f none
    else s.setFrame f { s.frame f with retirePending := false } := by
  obtain ⟨hh, hp, hm, _⟩ := id h
  rw [consequence_of_held hh, if_pos h, moveRefusal?_sound hh hp hm]
  congr 1
  by_cases hj : 8 ≤ s.jobs.length <;> by_cases hq : s.freeQueue = [] <;> simp [hj, hq]

/-! ### The end of the work, and the event -/

theorem finder_eq (work : CheckWork) : work.finder = if work = .walk then .scrub else .check := by cases work <;> rfl

theorem exec_checkCompletion {a : FrameId} {errors : List ErrorEvent} {work : CheckWork}
    (hc : s.arbiter.current = some (.check a errors)) (he : s.scrub.engine = .busy f work) : exec .checkCompletion s =
      .next ((s.endAccess.endedCheck f work errors).takeWork).finish := by
  change execCheckCompletion s = _
  unfold execCheckCompletion
  rw [hc]
  exact congrArg (fun y : State => Host.Outcome.next y.finish) (completeCheck_busy s.endAccess errors he)

/-- The end of the engine's work, by whom it served (R95, R107). -/
def State.workEnded (x : State) (f : FrameId) (work : CheckWork) (errors : List ErrorEvent) : State :=
  match work with
  | .walk => { x with scrub := { x.scrub with walkTimer := if x.scrub.interval = 0 then .stopped else .running } }
  | .orphan => x
  | .request i tag =>
    State.repliedDeferred
      { x with scrub := { x.scrub with checkQueue := x.scrub.checkQueue.erase ⟨i, tag, f⟩ } } i 0x32 tag
      ([0x00] ++ be16 f.val ++
        [BitVec.ofNat 8 (errors.countP fun e => e.kind ≠ .uncorrectable),
         if errors.any fun e => e.kind = .uncorrectable then 1 else 0, BitVec.ofNat 8 (x.frame f).tally,
         (x.frame f).state.code,
         (if (x.frame f).poisoned then 1 else 0) ||| (if (x.frame f).retirePending then 2 else 0) |||
           (if (x.frame f).moving then 4 else 0)])

theorem endWork_eq (x : State) (f : FrameId) (work : CheckWork) (errors : List ErrorEvent) :
    x.endWork f work errors = x.workEnded f work errors := by
  cases work with
  | walk => rfl
  | orphan => rfl
  | request i tag => exact answer_eq_repliedDeferred ..

/-- Settles O54: the frame's consequence by its record, then the end of the work and the next work. -/
theorem checkCompletes : Obligations.CheckCompletes := by
  intro s a f errors work hc he ended r then_ pending
  have completes : ∀ {x : State}, ended.consequence f = x → then_ x := fun {x} hx => by
    have effects : s.endAccess.endedCheck f work errors = x.workEnded f work errors := by
      unfold State.endedCheck
      rw [endWork_eq, finder_eq]
      exact congrArg (State.workEnded · f work errors) hx
    refine (exec_checkCompletion hc he).trans ?_
    rw [effects]
    cases work <;> rfl
  refine ⟨fun h => completes (consequence_free h), fun h => completes (consequence_unused h),
    fun h => completes (consequence_retired h), fun hh hn => completes (consequence_held hh hn), fun hp hd => ?_,
    fun hp hd hroom => ?_, fun target rest hp hd hj hq hne => ?_⟩
  all_goals refine completes ((consequence_pending hp).trans ?_)
  · exact if_neg (Nat.not_lt.2 hd)
  · exact (if_pos hd).trans (if_pos hroom)
  · have room : ¬(8 ≤ ended.jobs.length ∨ ended.freeQueue = []) := by
      rw [hq]
      simpa using hj
    exact ((if_pos hd).trans (if_neg room)).trans (makeMove_eq hq hne none)

end Sys2Proof.Machine
end

section
/-! THEOREMS. RETIRE by the frame's state (R109–R112, Table 5-5). -/

namespace Sys2Proof.Machine

variable {s y : State} {f target : FrameId} {rest : List FrameId} {i : LinkId} {tag : Byte}

/-! ### A frame retired beside a request that enters PENDING (R33, R140) -/

section Deferred

variable (s : State) (f : FrameId) (i : LinkId) (d : DeferredKind) (tag : Byte)

theorem raiseOn_deferredPending (j : LinkId) (n : Notice) :
    (s.deferredPending i d tag).raiseOn j n = (s.raiseOn j n).deferredPending i d tag := by
  unfold State.raiseOn State.deferredPending
  by_cases h : i = j
  · subst h
    rw [onLink_onLink, onLink_onLink]
    refine onLink_congr s i _ _ ?_
    dsimp only
    split <;> rfl
  · exact onLink_comm s i j _ _ h

theorem raiseBoth_deferredPending (n : Notice) :
    (s.deferredPending i d tag).raiseBoth n = (s.raiseBoth n).deferredPending i d tag := by
  unfold State.raiseBoth
  rw [raiseOn_deferredPending, raiseOn_deferredPending]

theorem freeFalls_deferredPending (queue : List FrameId) :
    (s.deferredPending i d tag).freeFalls queue = (s.freeFalls queue).deferredPending i d tag := by
  unfold State.freeFalls
  rw [apply_ite (State.deferredPending · i d tag), ← raiseBoth_deferredPending]
  cases i <;> rfl

theorem outOfService_deferredPending (b : Bool) :
    (s.deferredPending i d tag).outOfService f b = (s.outOfService f b).deferredPending i d tag := by
  unfold State.outOfService
  rw [← raiseBoth_deferredPending]
  cases i <;> rfl

end Deferred

/-- A FREE frame retired, written out (R33, R36). -/
def State.freeRetired (s : State) (f : FrameId) : State := (s.freeFalls (s.freeQueue.erase f)).outOfService f true

theorem retireFree_deferredPending (s : State) (f : FrameId) (i : LinkId) (d : DeferredKind) (tag : Byte) :
    (s.deferredPending i d tag).retireFree f true = (s.freeRetired f).deferredPending i d tag := by
  rw [retireFree_eq_freeFalls, deferredPending_freeQueue, freeFalls_deferredPending, outOfService_deferredPending]
  rfl

theorem freeFalls_arbiter (s : State) (queue : List FrameId) : (s.freeFalls queue).arbiter = s.arbiter := by
  rw [freeFalls_eq_examineFall]
  exact setSupply_arbiter ..

theorem canTake_freeFalls (s : State) (queue : List FrameId) (j : LinkId) :
    ((s.freeFalls queue).link j).canTake = (s.link j).canTake := by
  rw [freeFalls_eq_examineFall]
  exact (canTake_setSupply ..).trans (by cases j <;> rfl)

theorem freeRetired_arbiter (s : State) (f : FrameId) : (s.freeRetired f).arbiter = s.arbiter :=
  (raiseBoth_arbiter ..).trans (freeFalls_arbiter ..)

theorem canTake_freeRetired (s : State) (f : FrameId) (j : LinkId) :
    ((s.freeRetired f).link j).canTake = (s.link j).canTake := by
  unfold State.freeRetired
  rw [outOfService_eq_retireFrame, canTake_retireFrame, canTake_freeFalls]

theorem deferred_raiseBoth (s : State) (n : Notice) (j : LinkId) :
    ((s.raiseBoth n).link j).deferred = (s.link j).deferred := by
  rw [link_raiseBoth]
  split <;> rfl

theorem deferred_freeRetired (s : State) (f : FrameId) (j : LinkId) :
    ((s.freeRetired f).link j).deferred = (s.link j).deferred := by
  have falls : ((s.freeFalls (s.freeQueue.erase f)).link j).deferred = (s.link j).deferred := by
    unfold State.freeFalls
    split
    · exact (deferred_raiseBoth ..).trans (by cases j <;> rfl)
    · cases j <;> rfl
  refine (deferred_raiseBoth ..).trans ?_
  rw [link_setFrame]
  refine Eq.trans ?_ falls
  cases j <;> rfl

/-! ### The first case that holds (Table 5-5) -/

theorem serveRetire_range {n : Nat} (h : 4096 ≤ n) :
    serveRetire i tag n s = s.answer i .retire tag (0x17 :: be16 n ++ [0, 0, 0]) := by
  unfold serveRetire
  rw [frame?_eq_none h]
  rfl

section Named

variable {n : Nat} (hf : f.val = n)

include hf

theorem serveRetire_retired (hs : (s.frame f).state = .retired) :
    serveRetire i tag n s = s.answerRetire i tag .ok f := by
  unfold serveRetire
  rw [frame?_eq_some hf]
  exact if_pos hs

theorem serveRetire_limited (hs : (s.frame f).state ≠ .retired) (hd : 256 ≤ s.scrub.discretionary) :
    serveRetire i tag n s = s.answerRetire i tag .limit f := by
  unfold serveRetire
  rw [frame?_eq_some hf]
  exact (if_neg hs).trans (if_pos hd)

variable (hd : ¬retireLimit ≤ s.scrub.discretionary)

include hd

theorem serveRetire_free (hs : (s.frame f).state = .free) :
    serveRetire i tag n s = (s.retireFree f true).answerRetire i tag .ok f := by
  simp only [serveRetire, frame?_eq_some hf, hs, hd, reduceCtorEq, if_false]

theorem serveRetire_clearing (hs : (s.frame f).state = .clearing) : serveRetire i tag n s =
    State.setFrame { s with scrub := { s.scrub with retireWait := s.scrub.retireWait ++ [⟨i, tag, f⟩] } } f
      { s.frame f with retirePending := (s.frame f).retirePending || !(s.frame f).poisoned } := by
  simp only [serveRetire, frame?_eq_some hf, hs, hd, reduceCtorEq, if_false]

theorem serveRetire_target (hs : (s.frame f).state = .target) :
    serveRetire i tag n s = s.answerRetire i tag .state f := by
  simp only [serveRetire, frame?_eq_some hf, hs, hd, reduceCtorEq, if_false]

variable {refs : List BackRef} (hs : (s.frame f).state = .held refs)

include hs

theorem serveRetire_moved (hm : s.moveRefusal? f = none) :
    serveRetire i tag n s = s.makeMove f (some (i, tag)) := by
  simp only [serveRetire, frame?_eq_some hf, hs, hd, hm, reduceCtorEq, if_false]

theorem serveRetire_refused {refusal : MoveRefusal} (hm : s.moveRefusal? f = some refusal) :
    serveRetire i tag n s = s.answerRetire i tag refusal.status f := by
  simp only [serveRetire, frame?_eq_some hf, hs, hd, hm, reduceCtorEq, if_false]

end Named

/-! ### RETIRE taken -/

theorem exec_retire (h : s.Ready i tag) (hd : (s.link i).deferred.length < 4) (a b : Byte) :
    exec (.retire i tag [a, b]) s =
      .next (serveRetire i tag (nat16 a b) ((s.heard i).deferredPending i .retire tag)).finish :=
  congrArg _ (Ready_request h .retire [a, b] rfl (Or.inr hd))

/-- A RETIRE answered in its own taking carries the frame, its state and the retired total (R112), on a part that only
a retirement may have changed. -/
theorem Ready_answerRetire (h : s.Ready i tag) (ha : y.arbiter = s.arbiter)
    (ht : ∀ j, (y.link j).canTake = (s.link j).canTake) (hd : (y.link i).deferred = (s.link i).deferred)
    (status : Status) :
    ((y.deferredPending i .retire tag).answerRetire i tag status f).finish =
      (y.answeredDeferred i .retire tag
        (status.code :: be16 f.val ++ [(y.frame f).state.code] ++ be16 y.scrub.retired.length)).settle := by
  unfold State.answerRetire
  rw [frame_deferredPending, deferredPending_scrub, answer_deferredPending (by rw [hd]; exact h.fresh)]
  exact Stable_finish h.stable ((onLink_arbiter ..).trans ha) fun j => (canTake_onLink _ _ _ _ rfl rfl).trans (ht j)

theorem moveMade_arbiter (s : State) (f target : FrameId) (rest : List FrameId) (requester : Option (LinkId × Byte)) :
    (s.moveMade f target rest requester).arbiter = (s.present .copyEngine).arbiter ∨
      (s.moveMade f target rest requester).arbiter = s.arbiter := by
  rw [present_eq_withArbiter]
  by_cases hj : s.jobs = []
  · exact .inl (by simp only [State.moveMade, State.withArbiter, hj, true_and])
  · exact .inr (if_neg fun h => hj h.1)

theorem canTake_moveMade (s : State) (f target : FrameId) (rest : List FrameId) (requester : Option (LinkId × Byte))
    (j : LinkId) : ((s.moveMade f target rest requester).link j).canTake = (s.link j).canTake := by
  refine Eq.trans ?_ (canTake_freeFalls s rest j)
  cases j <;> rfl

/-- Settles O46: the first case of Table 5-5 that holds, and the answer or the job it leads to. -/
theorem retireByState : Obligations.RetireByState := by
  intro s i tag a b h hd retire
  let accepted : State := (s.heard i).deferredPending i .retire tag
  have scrub : accepted.scrub = s.scrub := by simp [accepted]
  have arbiter : accepted.arbiter = s.arbiter := by simp [accepted]
  have free : accepted.freeQueue = s.freeQueue := by simp [accepted]
  have jobs : accepted.jobs = s.jobs := (onLink_jobs ..).trans (heard_jobs ..)
  have frame : ∀ f, accepted.frame f = s.frame f := fun f => by simp [accepted]
  have taken : ∀ j, (accepted.link j).canTake = (s.link j).canTake := fun j =>
    (canTake_deferredPending (s.heard i) i j .retire tag).trans (canTake_heard ..)
  have run : exec retire s = .next (serveRetire i tag (nat16 a b) accepted).finish := exec_retire h hd a b
  refine ⟨fun hn => ?_, fun f hf => ?_⟩
  · rw [run, serveRetire_range hn, be16_nat16]
    exact congrArg _ (Ready_answer h .retire _)
  · intro r answer limited
    have field : be16 f.val = [a, b] := hf ▸ be16_nat16 a b
    have ready : ∀ {x : State} {status : Status}, x.arbiter = s.arbiter → (∀ j, (x.link j).canTake = (s.link j).canTake) →
        (x.link i).deferred = (s.link i).deferred →
        serveRetire i tag (nat16 a b) accepted = (x.deferredPending i .retire tag).answerRetire i tag status f →
        answer x status.code := fun {x status} ha ht hx hserve => by
      refine run.trans ?_
      rw [hserve, Ready_answerRetire h ha ht hx, field]
      rfl
    have answers : ∀ {status : Status}, serveRetire i tag (nat16 a b) accepted = accepted.answerRetire i tag status f →
        answer (s.heard i) status.code :=
      ready (heard_arbiter ..) (fun j => canTake_heard ..) (by simp)
    have below : ¬limited → r.state ≠ .retired → ¬retireLimit ≤ accepted.scrub.discretionary := fun hl hs hle =>
      hl ⟨hs, scrub ▸ hle⟩
    refine ⟨fun hs => ?retired, fun hl => ?limited, fun hl hs => ?free, fun hl hs => ?clearing, fun hl hs => ?target,
      fun refs hl hs => ?held⟩
    case retired => exact answers (status := .ok) (serveRetire_retired hf ((congrArg _ (frame f)).trans hs))
    case limited =>
      exact answers (status := .limit) (serveRetire_limited hf (by rw [frame]; exact hl.1) (by rw [scrub]; exact hl.2))
    case free =>
      have written : ((s.heard i).freeFalls (s.freeQueue.erase f)).outOfService f true = (s.heard i).freeRetired f := by
        unfold State.freeRetired
        rw [heard_freeQueue]
      rw [written]
      refine ready (status := .ok) ((freeRetired_arbiter ..).trans (heard_arbiter ..))
        (fun j => (canTake_freeRetired ..).trans (canTake_heard ..)) ((deferred_freeRetired ..).trans (by simp)) ?_
      rw [serveRetire_free hf (below hl (by rw [hs]; nofun)) ((congrArg _ (frame f)).trans hs),
        retireFree_deferredPending]
    case clearing =>
      rw [run, serveRetire_clearing hf (below hl (by rw [hs]; nofun)) ((congrArg _ (frame f)).trans hs), frame, scrub]
      refine congrArg _ (Stable_finish h.stable arbiter fun j => Eq.trans ?_ (taken j))
      cases j <;> rfl
    case target =>
      exact answers (status := .state)
        (serveRetire_target hf (below hl (by rw [hs]; nofun)) ((congrArg _ (frame f)).trans hs))
    case held =>
      have within := below hl (by rw [hs]; nofun)
      have held : (accepted.frame f).state = .held refs := (congrArg _ (frame f)).trans hs
      have refused : ∀ {why : MoveRefusal}, accepted.moveRefusal? f = some why → answer (s.heard i) why.status.code :=
        fun hm => answers (serveRetire_refused hf within held hm)
      have sound : r.poisoned = false → r.moving = false → accepted.moveRefusal? f =
          if 8 ≤ s.jobs.length then some .busy else if s.freeQueue = [] then some .noFrame else none := fun hp hm => by
        rw [moveRefusal?_sound (by rw [held]; rfl) (by rw [frame]; exact hp) (by rw [frame]; exact hm), jobs, free]
      refine ⟨fun hpm => refused (why := .state) ?_, fun hp hm hj => refused (why := .busy) ?_,
        fun hp hm hj hq => refused (why := .noFrame) ?_, fun target rest hp hm hj hq hne => ?_⟩
      · refine if_pos (.inr ?_)
        rw [frame]
        exact hpm
      · rw [sound hp hm, if_pos hj]
      · rw [sound hp hm, if_neg (Nat.not_le.2 hj), if_pos hq]
      · have moves : accepted.moveRefusal? f = none := by
          rw [sound hp hm, if_neg (Nat.not_le.2 hj), if_neg (by rw [hq]; nofun)]
        intro falls
        rw [run, serveRetire_moved hf within held moves, makeMove_eq (free.trans hq) hne,
          finish_of_presented (c := .copyEngine) h.stable nofun arbiter (moveMade_arbiter ..) fun j =>
            (canTake_moveMade ..).trans (taken j)]
        unfold State.moveMade
        rw [frame, frame, jobs, arbiter]

end Sys2Proof.Machine
end

section
/-! SUPPORT. What holds of a link, part by part (R124, R141, R150, R157, R159, R179), and the changes of one link that
keep it. -/

namespace Sys2Proof.Machine

/-! ### The parts of `Link.Lawful` -/

/-- What holds of an open slot's transfer (R150, R157). -/
structure Transfer.Sound (t : Transfer) : Prop where
  position : t.position ≤ t.length
  inData : t.phase = .data → t.position < t.length
  inFinal : t.phase = .final → t.position = t.length ∧ t.last.isSome = true
  lastSegment : ∀ g, t.last = some g → g.toggle = !t.toggle ∧ g.position = t.position ∧
    (t.direction = .write → g.data = [])

/-- A SEG in processing is the next one of its slot's transfer (R159, R163). -/
structure Segment.Fits (g : Segment) (t : Transfer) : Prop where
  phase : t.phase = .data
  timer : t.timer = .stopped
  toggle : g.toggle = t.toggle
  least : 1 ≤ g.count
  greatest : g.count ≤ 64
  rest : g.count ≤ t.length - t.position

/-- What holds of a link, but for the number of its general places. -/
structure Link.Sound (l : Link) : Prop where
  deferredBound : l.deferred.length ≤ 4
  deferredDistinct : (l.deferred.map DeferredEntry.tag).Nodup
  deferredTagged : ∀ e ∈ l.deferred, e.tag ≠ 0
  downEmpty : l.state = .down → l.deferred = [] ∧ l.notices = [] ∧ ∀ k t, l.slots.get k ≠ .active t
  noticesDistinct : (l.notices.map Notice.classCode).Nodup
  transfers : ∀ k t, l.slots.get k = .active t → t.Sound
  segment : ∀ g, l.segment = some g → ∃ t, l.slots.get g.slot = .active t ∧ g.Fits t

theorem Link.lawful_iff (l : Link) : l.Lawful ↔ l.Sound ∧ l.generalOccupied ≤ 8 where
  mp h := ⟨{ h with
    transfers := fun k t ht => ⟨h.position k t ht, h.inData k t ht, h.inFinal k t ht, fun g => h.lastSegment k t g ht⟩
    segment := fun g hg => by
      obtain ⟨t, ht, hp, hs, htog, h1, h64, hr⟩ := h.segment g hg
      exact ⟨t, ht, hp, hs, htog, h1, h64, hr⟩ }, h.placesBound⟩
  mpr := fun ⟨h, hp⟩ => { h with
    placesBound := hp
    position := fun k t ht => (h.transfers k t ht).position
    inData := fun k t ht => (h.transfers k t ht).inData
    inFinal := fun k t ht => (h.transfers k t ht).inFinal
    lastSegment := fun k t g ht => (h.transfers k t ht).lastSegment g
    segment := fun g hg => by
      obtain ⟨t, ht, hf⟩ := h.segment g hg
      exact ⟨t, ht, hf.phase, hf.timer, hf.toggle, hf.least, hf.greatest, hf.rest⟩ }

section

variable {l : Link}

theorem Transfer.Sound.halt {t : Transfer} (h : t.Sound) (cause : HaltCause) : (t.halt cause).Sound :=
  ⟨h.position, nofun, nofun, h.lastSegment⟩

theorem Transfer.Sound.retimed {t : Transfer} (h : t.Sound) (timer : Timer) :
    Transfer.Sound { t with timer := timer } :=
  ⟨h.position, h.inData, h.inFinal, h.lastSegment⟩

theorem Transfer.Sound.uncounted {t : Transfer} (h : t.Sound) : Transfer.Sound { t with counted := false } :=
  ⟨h.position, h.inData, h.inFinal, h.lastSegment⟩

/-- A transfer just opened (R154). -/
theorem opened_sound {t : Transfer} (hp : t.position = 0) (hl : t.length ≠ 0) (hd : t.phase = .data)
    (hn : t.last = none) : t.Sound where
  position := by omega
  inData _ := by omega
  inFinal h := by rw [hd] at h; cases h
  lastSegment _ h := by rw [hn] at h; cases h

/-- A link with an open slot is not DOWN (R150). -/
theorem Link.Sound.not_down (h : l.Sound) {k : SlotId} {t : Transfer} (ht : l.slots.get k = .active t) :
    l.state ≠ .down := by
  intro hd
  obtain ⟨_, _, hslots⟩ := h.downEmpty hd
  exact hslots k t ht

/-- The SEG in processing fits the transfer of its slot. -/
theorem Link.Sound.fits (h : l.Sound) {g : Segment} {k : SlotId} {t : Transfer} (hg : l.segment = some g)
    (hk : g.slot = k) (ht : l.slots.get k = .active t) : g.Fits t := by
  obtain ⟨u, hu, hf⟩ := h.segment g hg
  rw [hk, ht] at hu
  exact Slot.active.inj hu ▸ hf

/-- What no part of `Link.Sound` reads may change. -/
theorem Link.Sound.of_eq {l' : Link} (h : l.Sound) (hs : l'.state = l.state) (hd : l'.deferred = l.deferred)
    (hn : l'.notices = l.notices) (hk : l'.slots = l.slots) (hg : l'.segment = l.segment) : l'.Sound where
  deferredBound := hd ▸ h.deferredBound
  deferredDistinct := hd ▸ h.deferredDistinct
  deferredTagged := hd ▸ h.deferredTagged
  downEmpty := by rw [hs, hd, hn, hk]; exact h.downEmpty
  noticesDistinct := hn ▸ h.noticesDistinct
  transfers := hk ▸ h.transfers
  segment := by rw [hg, hk]; exact h.segment

theorem get_set_slots (slots : Vector Slot 4) (k m : SlotId) (slot : Slot) :
    (slots.set k.val slot k.isLt).get m = if m = k then slot else slots.get m := by
  rw [Vector.get_eq_getElem, Vector.getElem_set]
  simp only [Fin.val_inj, eq_comm]
  rfl

/-- A slot replaced: an open one is sound, its link not DOWN, and it fits the link's SEG in processing if that is its
own. -/
theorem Link.Sound.setSlot (h : l.Sound) (k : SlotId) (slot : Slot)
    (open_ : ∀ t, slot = .active t → t.Sound ∧ l.state ≠ .down)
    (fits : ∀ g, l.segment = some g → g.slot = k → ∃ t, slot = .active t ∧ g.Fits t) :
    Link.Sound { l with slots := l.slots.set k.val slot k.isLt } where
  deferredBound := h.deferredBound
  deferredDistinct := h.deferredDistinct
  deferredTagged := h.deferredTagged
  downEmpty hd := by
    obtain ⟨h1, h2, h3⟩ := h.downEmpty hd
    refine ⟨h1, h2, fun m t ht => ?_⟩
    dsimp only at ht
    rw [get_set_slots] at ht
    split at ht
    · exact (open_ t ht).2 hd
    · exact h3 m t ht
  noticesDistinct := h.noticesDistinct
  transfers m t ht := by
    dsimp only at ht
    rw [get_set_slots] at ht
    split at ht
    · exact (open_ t ht).1
    · exact h.transfers m t ht
  segment g hg := by
    dsimp only
    rw [get_set_slots]
    split
    · next hk => exact fits g hg hk
    · exact h.segment g hg

/-- The timers of a vector's open slots, written over the list of slots. -/
theorem slots_withTimer (slots : Vector Slot 4) (change : Timer → Timer) {retimed : Vector Slot 4}
    (h : retimed.toList = slots.toList.map fun k => match k with
      | .active t => .active { t with timer := change t.timer }
      | .idle last => .idle last) : retimed = slots.map fun k => k.withTimer change := by
  refine Vector.toList_inj.1 (h.trans ?_)
  rw [Vector.toList_map]
  exact List.map_congr_left fun k _ => by cases k <;> rfl

theorem get_withTimer (slots : Vector Slot 4) (change : Timer → Timer) (k : SlotId) (t : Transfer) :
    (slots.map fun k => k.withTimer change).get k = .active t ↔
      ∃ u, slots.get k = .active u ∧ { u with timer := change u.timer } = t := by
  simp only [Vector.get_eq_getElem, Vector.getElem_map]
  cases slots[k.val] <;> simp [Slot.withTimer]

/-- The timers of the open slots changed: a stopped one stays stopped while a SEG is in processing (R159, R171). -/
theorem Link.Sound.retime {l' : Link} (h : l.Sound) (change : Timer → Timer)
    (hc : change .stopped = .stopped ∨ l.segment = none) (hk : l'.slots = l.slots.map fun k => k.withTimer change)
    (hs : l'.state = .down → l.state = .down) (hd : l'.deferred = l.deferred) (hn : l'.notices = l.notices)
    (hg : l'.segment = l.segment) : l'.Sound where
  deferredBound := hd ▸ h.deferredBound
  deferredDistinct := hd ▸ h.deferredDistinct
  deferredTagged := hd ▸ h.deferredTagged
  downEmpty hdown := by
    obtain ⟨h1, h2, h3⟩ := h.downEmpty (hs hdown)
    refine ⟨hd.trans h1, hn.trans h2, fun k t ht => ?_⟩
    rw [hk] at ht
    obtain ⟨u, hu, _⟩ := (get_withTimer ..).1 ht
    exact h3 k u hu
  noticesDistinct := hn ▸ h.noticesDistinct
  transfers k t ht := by
    rw [hk] at ht
    obtain ⟨u, hu, rfl⟩ := (get_withTimer ..).1 ht
    exact (h.transfers k u hu).retimed _
  segment g hseg := by
    rw [hg] at hseg
    obtain ⟨u, hu, hf⟩ := h.segment g hseg
    have hstop : change u.timer = .stopped := by
      rcases hc with hc | hc
      · rw [hf.timer, hc]
      · rw [hseg] at hc; cases hc
    rw [hk]
    exact ⟨_, (get_withTimer ..).2 ⟨u, hu, rfl⟩, hf.phase, hstop, hf.toggle, hf.least, hf.greatest, hf.rest⟩

/-! ### Notices -/

theorem classCode_merge (p n : Notice) : (p.merge n).classCode = p.classCode := by
  cases p <;> cases n <;> rfl

/-- A raise leaves at most one notice of each class (R179, R180). -/
theorem raiseInto_distinct {set : List Notice} (h : (set.map Notice.classCode).Nodup) (n : Notice) :
    ((raiseInto set n).map Notice.classCode).Nodup := by
  unfold raiseInto
  split
  · have same : (set.map fun p => if p.classCode = n.classCode then p.merge n else p).map Notice.classCode =
        set.map Notice.classCode := by
      rw [List.map_map]
      refine List.map_congr_left fun p _ => ?_
      dsimp only [Function.comp]
      split
      · exact classCode_merge p n
      · rfl
    exact same ▸ h
  · next hn =>
    rw [List.map_append, List.nodup_append]
    refine ⟨h, List.nodup_singleton _, fun c hc d hd => ?_⟩
    obtain ⟨p, hp, rfl⟩ := List.mem_map.1 hc
    obtain rfl : d = n.classCode := by simpa using hd
    exact fun e => hn (List.any_eq_true.2 ⟨p, hp, by simpa using e⟩)

theorem Link.Sound.raise (h : l.Sound) (hu : l.state ≠ .down) (n : Notice) :
    Link.Sound { l with notices := raiseInto l.notices n } :=
  { h with
    downEmpty := fun hd => absurd hd hu
    noticesDistinct := raiseInto_distinct h.noticesDistinct n }

/-! ### Growth of the general places -/

/-- A change of a link that keeps what holds of it and occupies at most `n` more general places. -/
structure Link.Grows (n : Int) (l l' : Link) : Prop where
  sound : l.Sound → l'.Sound
  places : (l'.generalOccupied : Int) ≤ l.generalOccupied + n

/-- Such a change that begins no processing of a SEG. -/
structure Link.Keeps (n : Int) (l l' : Link) : Prop extends Link.Grows n l l' where
  free : l.segment = none → l'.segment = none

theorem Link.Keeps.refl (l : Link) : l.Keeps 0 l := ⟨⟨id, by omega⟩, id⟩

theorem Link.Grows.trans {m n : Int} {l' l'' : Link} (h : l.Grows m l') (h' : l'.Grows n l'') : l.Grows (m + n) l'' :=
  ⟨h'.sound ∘ h.sound, by have := h.places; have := h'.places; omega⟩

theorem Link.Keeps.trans {m n : Int} {l' l'' : Link} (h : l.Keeps m l') (h' : l'.Keeps n l'') : l.Keeps (m + n) l'' :=
  ⟨h.toGrows.trans h'.toGrows, h'.free ∘ h.free⟩

theorem Link.Keeps.weaken {m n : Int} {l' : Link} (h : l.Keeps m l') (hmn : m ≤ n) : l.Keeps n l' :=
  ⟨⟨h.sound, by have := h.places; omega⟩, h.free⟩

/-- A change that no invariant of a link reads. -/
theorem Link.Keeps.of_eq {n : Int} {l' : Link} (hs : l'.state = l.state) (hd : l'.deferred = l.deferred)
    (hn : l'.notices = l.notices) (hk : l'.slots = l.slots) (hg : l'.segment = l.segment)
    (hp : (l'.generalOccupied : Int) ≤ l.generalOccupied + n) : l.Keeps n l' :=
  ⟨⟨fun h => h.of_eq hs hd hn hk hg, hp⟩, fun h => hg.trans h⟩

/-- A message joins the transmit queue (R124). -/
theorem keeps_enqueue (l : Link) (m : Outgoing) {n : Int} (h0 : 0 ≤ n) (hm : m.place = .general → 1 ≤ n) :
    l.Keeps n { l with queue := l.queue ++ [m] } := by
  refine .of_eq rfl rfl rfl rfl rfl ?_
  unfold Link.generalOccupied
  rw [List.countP_append, List.countP_singleton]
  simp only [decide_eq_true_eq]
  split
  · next h => have := hm h; omega
  · omega

/-- A deferred request's entry becomes ANSWERED (R140). -/
theorem keeps_markAnswered (l : Link) (tag : Byte) :
    l.Keeps 0 { l with
      deferred := l.deferred.map fun e => if e.tag = tag then { e with answered := true } else e } := by
  set mark : DeferredEntry → DeferredEntry := fun e => if e.tag = tag then { e with answered := true } else e with hmark
  have htag : ∀ e, (mark e).tag = e.tag := fun e => by rw [hmark]; dsimp only; split <;> rfl
  refine ⟨⟨fun h => { h with
    deferredBound := ?_, deferredDistinct := ?_, deferredTagged := ?_, downEmpty := fun hd => ?_ }, ?_⟩, id⟩
  · simpa using h.deferredBound
  · rw [List.map_map, show DeferredEntry.tag ∘ mark = DeferredEntry.tag from funext htag]
    exact h.deferredDistinct
  · intro e he
    obtain ⟨e', he', rfl⟩ := List.mem_map.1 he
    exact htag e' ▸ h.deferredTagged e' he'
  · obtain ⟨h1, h2, h3⟩ := h.downEmpty hd
    exact ⟨by simp [h1], h2, h3⟩
  · change (l.generalOccupied : Int) ≤ _; omega

/-- The transmitter's next message, the dormancy timer and ATTN (R125, R131, R184, R187). -/
theorem keeps_settle (l : Link) : l.Keeps 0 l.settle := by
  have hlines : l.transmit.Keeps 0 l.settle := .of_eq rfl rfl rfl rfl rfl (by rw [add_zero]; rfl)
  refine .trans (m := 0) ?_ hlines
  rcases transmit_cases l with ⟨ht, _⟩ | ⟨hs, _, m, rest, hq, ht⟩ | ⟨hs, hu, hq, n, _, ht⟩ <;> rw [ht]
  · exact .refl l
  · refine .of_eq rfl rfl rfl rfl rfl ?_
    unfold Link.generalOccupied
    rw [hs, hq, List.countP_cons]
    simp only [Option.toList_some, Option.toList_none, List.countP_singleton, List.countP_nil]
    omega
  · refine ⟨⟨fun h => { h with
      downEmpty := fun hd => absurd (hu.symm.trans hd) nofun
      noticesDistinct := h.noticesDistinct.sublist (List.erase_sublist.map _) }, ?_⟩, id⟩
    unfold Link.generalOccupied
    rw [hs]
    simp [Notice.message]

/-- A link right after a reset (R126, R134). -/
theorem keeps_initial (l : Link) (rate : BitVec 2) (rxdLow : Bool) : l.Keeps 0 (Link.initial rate rxdLow) := by
  refine ⟨⟨fun _ => ((Link.lawful_iff _).1 (initial_lawful rate rxdLow)).1, ?_⟩, fun _ => rfl⟩
  have : (Link.initial rate rxdLow).generalOccupied = 0 := rfl
  omega

end

end Sys2Proof.Machine
end

section
/-! SUPPORT. What each operation of an event leaves of the links: nearly all keep what holds of both
(`State.LinksKept`), and the reply to a message occupies one more general place of its link (`State.LinkGrown`). -/

namespace Sys2Proof.Machine

/-! ### The relations -/

/-- Both links keep what holds of them, and one of them occupies at most `n` more general places. -/
structure State.LinkKept (s : State) (i : LinkId) (n : Int) (t : State) : Prop where
  link : ∀ j, (s.link j).Keeps (if j = i then n else 0) (t.link j)

/-- Both links keep what holds of them, and occupy no more general places. -/
structure State.LinksKept (s t : State) : Prop where
  link : ∀ j, (s.link j).Keeps 0 (t.link j)

/-- Both links keep what holds of them, and one of them occupies at most one more general place: a reply, or a SEG in
processing (R124). -/
structure State.LinkGrown (s : State) (i : LinkId) (t : State) : Prop where
  link : ∀ j, (s.link j).Grows (if j = i then 1 else 0) (t.link j)

section

variable {s t u : State} {i : LinkId} {m n : Int}

theorem State.LinksKept.refl (s : State) : s.LinksKept s := ⟨fun _ => .refl _⟩

theorem linksKept_of_eq (h : ∀ j, t.link j = s.link j) : s.LinksKept t := ⟨fun j => h j ▸ .refl _⟩

theorem linksKept_of_links (h0 : t.link0 = s.link0) (h1 : t.link1 = s.link1) : s.LinksKept t :=
  linksKept_of_eq fun j => by
    cases j
    exacts [h0, h1]

theorem State.LinksKept.trans (h : s.LinksKept t) (h' : t.LinksKept u) : s.LinksKept u :=
  ⟨fun j => (h.link j).trans (h'.link j)⟩

theorem State.LinksKept.then (h : s.LinksKept t) (h' : t.LinkKept i n u) : s.LinkKept i n u :=
  ⟨fun j => ((h.link j).trans (h'.link j)).weaken (zero_add _).le⟩

theorem State.LinkKept.then (h : s.LinkKept i n t) (h' : t.LinksKept u) : s.LinkKept i n u :=
  ⟨fun j => ((h.link j).trans (h'.link j)).weaken (add_zero _).le⟩

theorem State.LinkKept.trans (h : s.LinkKept i m t) (h' : t.LinkKept i n u) : s.LinkKept i (m + n) u :=
  ⟨fun j => ((h.link j).trans (h'.link j)).weaken (by split <;> simp)⟩

theorem State.LinkKept.kept (h : s.LinkKept i m t) (hm : m ≤ 0) : s.LinksKept t :=
  ⟨fun j => (h.link j).weaken (by split; exacts [hm, le_rfl])⟩

theorem State.LinksKept.linkKept (h : s.LinksKept t) (i : LinkId) (hn : 0 ≤ n) : s.LinkKept i n t :=
  ⟨fun j => (h.link j).weaken (by split; exacts [hn, le_rfl])⟩

theorem State.LinkKept.grown (h : s.LinkKept i 1 t) : s.LinkGrown i t := ⟨fun j => (h.link j).toGrows⟩

theorem State.LinksKept.grow (h : s.LinksKept t) (h' : t.LinkGrown i u) : s.LinkGrown i u :=
  ⟨fun j => by simpa using (h.link j).toGrows.trans (h'.link j)⟩

theorem State.LinksKept.grown (h : s.LinksKept t) (i : LinkId) : s.LinkGrown i t :=
  (h.linkKept i zero_le_one).grown

/-- Operations that keep the links, one after another. -/
theorem linksKept_foldl {α : Type} (step : State → α → State) (l : List α)
    (h : ∀ (x : State) (a : α), x.LinksKept (step x a)) (s : State) : s.LinksKept (l.foldl step s) :=
  foldl_keeps (fun x : State => s.LinksKept x) step l (fun x a _ hx => hx.trans (h x a)) s (.refl s)

end

variable (s : State) (i : LinkId) (k : SlotRef) (f : FrameId) (p : BackRef)

theorem linkKept_onLink (n : Int) (c : Link → Link) (h : (s.link i).Keeps n (c (s.link i))) :
    s.LinkKept i n (s.onLink i c) where
  link j := by
    rw [link_onLink]
    split
    · next hj => exact hj ▸ h
    · exact .refl _

theorem linksKept_onLink (c : Link → Link) (h : (s.link i).Keeps 0 (c (s.link i))) : s.LinksKept (s.onLink i c) :=
  (linkKept_onLink s i 0 c h).kept le_rfl

/-- A change of a link that none of its invariants reads. -/
theorem linksKept_onLink_of_eq (c : Link → Link) (hs : (c (s.link i)).state = (s.link i).state)
    (hd : (c (s.link i)).deferred = (s.link i).deferred) (hn : (c (s.link i)).notices = (s.link i).notices)
    (hk : (c (s.link i)).slots = (s.link i).slots) (hg : (c (s.link i)).segment = (s.link i).segment)
    (hp : (c (s.link i)).generalOccupied = (s.link i).generalOccupied) : s.LinksKept (s.onLink i c) :=
  linksKept_onLink s i c (.of_eq hs hd hn hk hg (by rw [hp, add_zero]))

/-! ### Notices and messages -/

theorem linksKept_raiseOn (n : Notice) : s.LinksKept (s.raiseOn i n) := by
  refine linksKept_onLink s i _ ?_
  split
  · exact .refl _
  · next hu => exact ⟨⟨fun h => h.raise hu n, by rw [add_zero]; rfl⟩, id⟩

theorem linksKept_raiseBoth (n : Notice) : s.LinksKept (s.raiseBoth n) :=
  (linksKept_raiseOn s .link0 n).trans (linksKept_raiseOn _ .link1 n)

/-- A message joins a transmit queue; one that is no general message takes no general place (R124). -/
theorem linkKept_enqueue (m : Outgoing) {n : Int} (h0 : 0 ≤ n) (hm : m.place = .general → 1 ≤ n) :
    s.LinkKept i n (s.enqueue i m) := linkKept_onLink s i n _ (keeps_enqueue _ m h0 hm)

theorem linkKept_reply (kind : RequestKind) (tag : Byte) (payload : List Byte) :
    s.LinkKept i 1 (s.reply i kind tag payload) := linkKept_enqueue s i _ zero_le_one fun _ => le_rfl

theorem linkKept_reject (m : Message) (status : Status) : s.LinkKept i 1 (s.reject i m status) :=
  linkKept_enqueue s i _ zero_le_one fun _ => le_rfl

theorem linksKept_answer (kind : DeferredKind) (tag : Byte) (payload : List Byte) :
    s.LinksKept (s.answer i kind tag payload) :=
  (linksKept_onLink s i _ (keeps_markAnswered ..)).trans ((linkKept_enqueue _ i _ le_rfl (by simp)).kept le_rfl)

theorem linksKept_answerRequester (requester : Option (LinkId × Byte)) (status : Status) :
    s.LinksKept (s.answerRequester requester status f) := by
  unfold State.answerRequester
  split
  · exact .refl s
  · exact linksKept_answer ..

/-! ### The supply state and the arbiter -/

theorem linksKept_setSupply (st : SupplyState) : s.LinksKept (s.setSupply st) := by
  unfold State.setSupply
  split
  · exact .refl s
  · exact .trans (linksKept_of_links (by rfl) (by rfl)) (linksKept_raiseBoth ..)

theorem linksKept_examineFall : s.LinksKept s.examineFall := linksKept_setSupply s _

theorem linksKept_present (c : Client) : s.LinksKept (s.present c) := linksKept_of_eq fun _ => link_present ..

theorem linksKept_kickClearer : s.LinksKept s.kickClearer := linksKept_of_eq fun _ => link_kickClearer ..

theorem linksKept_examineWaiters : s.LinksKept s.examineWaiters :=
  .trans (linksKept_of_links (by rfl) (by rfl)) (linksKept_foldl _ _ (fun _ _ => linksKept_answer ..) _)

theorem linksKept_answerRetireWait : s.LinksKept (s.answerRetireWait f) :=
  .trans (linksKept_of_links (by rfl) (by rfl)) (linksKept_foldl _ _ (fun _ _ => linksKept_answer ..) _)

theorem linksKept_expireWaiter (tag : Byte) : s.LinksKept (s.expireWaiter i tag) := by
  unfold State.expireWaiter
  split
  · exact .trans (linksKept_of_links (by rfl) (by rfl)) (linksKept_answer ..)
  · exact .refl s

/-! ### Frames and pages -/

theorem linksKept_setFrame (r : FrameRecord) : s.LinksKept (s.setFrame f r) := linksKept_of_eq fun _ => link_setFrame ..

theorem linksKept_setEntry (e : Option MapEntry) : s.LinksKept (s.setEntry p e) :=
  linksKept_of_eq fun _ => link_setEntry ..

theorem linksKept_commonEffect (finder : Finder) (e : ErrorEvent) : s.LinksKept (s.commonEffect finder e) := by
  unfold State.commonEffect
  split
  · exact linksKept_setFrame ..
  · dsimp only
    split
    · exact linksKept_setFrame ..
    · exact (linksKept_setFrame ..).trans (linksKept_raiseBoth ..)

theorem linksKept_commonEffects (finder : Finder) (es : List ErrorEvent) : s.LinksKept (s.commonEffects finder es) :=
  linksKept_foldl _ es (fun _ _ => linksKept_commonEffect ..) s

theorem linksKept_retireFrame (d : Bool) : s.LinksKept (s.retireFrame f d) :=
  .trans (linksKept_of_links (by rfl) (by rfl)) (linksKept_raiseBoth ..)

theorem linksKept_release : s.LinksKept (s.release f) := by
  unfold State.release
  split
  · exact linksKept_retireFrame ..
  · exact .trans (linksKept_of_links (by rfl) (by rfl)) (linksKept_kickClearer _)

theorem linksKept_retireFree (d : Bool) : s.LinksKept (s.retireFree f d) :=
  .trans (linksKept_of_links (by rfl) (by rfl)) ((linksKept_examineFall _).trans (linksKept_retireFrame ..))

theorem linksKept_resolveFree : s.LinksKept (s.resolveFree f) := by
  unfold State.resolveFree
  dsimp only
  split
  · exact linksKept_retireFree ..
  · split
    · split
      · exact linksKept_retireFree ..
      · exact linksKept_setFrame ..
    · exact .refl s

theorem linksKept_detach : s.LinksKept (s.detach p).1 := by
  unfold State.detach
  split
  · exact .refl s
  · next e _ =>
    have hset : s.LinksKept ((s.setEntry p none).setFrame e.frame
        { s.frame e.frame with state := .held ((s.frame e.frame).state.refs.erase p) }) :=
      (linksKept_setEntry ..).trans (linksKept_setFrame ..)
    dsimp only
    split
    · dsimp only
      split
      · exact hset
      · exact hset.trans (linksKept_release ..)
    · exact hset

theorem linksKept_detachAll (ps : List BackRef) : s.LinksKept (s.detachAll ps).1 := by
  rw [detachAll_eq_foldl]
  exact linksKept_foldl _ ps (fun _ _ => linksKept_detach ..) s

theorem linksKept_mapPage : s.LinksKept (s.mapPage p f) := (linksKept_setFrame ..).trans (linksKept_setEntry ..)

theorem linksKept_clonePage (q : BackRef) : s.LinksKept (s.clonePage p q) := by
  unfold State.clonePage
  split
  · exact .refl s
  · exact (linksKept_setFrame ..).trans (linksKept_setEntry ..)

theorem linksKept_changeEntries (change : MapEntry → MapEntry) (ps : List BackRef) :
    s.LinksKept (ps.foldl (State.changeEntry change) s) := by
  refine linksKept_foldl _ ps (fun x p => ?_) s
  unfold State.changeEntry
  split
  · exact .refl x
  · exact linksKept_setEntry ..

/-! ### Slots -/

theorem linksKept_leaveWaiters : s.LinksKept (s.leaveWaiters k) := linksKept_of_links (by rfl) (by rfl)

theorem linksKept_joinWaiters (picks : CopyJob → Bool) : s.LinksKept (s.joinWaiters k picks) :=
  linksKept_of_links (by rfl) (by rfl)

theorem linksKept_slotReady (waiters : List SlotRef) : s.LinksKept (s.slotReady waiters) := by
  refine linksKept_foldl _ _ (fun x i => ?_) s
  split
  · exact .refl x
  · exact linksKept_raiseOn ..

variable {s i k}

/-- A slot replaced, where what holds of its link admits the new one. -/
theorem linksKept_setSlot {slot : Slot}
    (h : (s.link k.1).Sound → (∀ t, slot = .active t → t.Sound ∧ (s.link k.1).state ≠ .down) ∧
      ∀ g, (s.link k.1).segment = some g → g.slot = k.2 → ∃ t, slot = .active t ∧ g.Fits t) :
    s.LinksKept (s.setSlot k slot) :=
  linksKept_onLink s k.1 _ ⟨⟨fun hl => hl.setSlot k.2 slot (h hl).1 (h hl).2, by rw [add_zero]; rfl⟩, id⟩

/-- An open slot replaced by an open one, no SEG of the link being in processing. -/
theorem linksKept_setSlot_free {t u : Transfer} (hg : (s.link k.1).segment = none) (ht : s.slot k = .active t)
    (hu : t.Sound → u.Sound) : s.LinksKept (s.setSlot k (.active u)) := by
  refine linksKept_setSlot fun hl => ⟨?_, fun g hs => by rw [hg] at hs; cases hs⟩
  rintro _ ⟨⟩
  exact ⟨hu (hl.transfers k.2 t ht), hl.not_down ht⟩

/-- A slot returned to IDLE, its transfer not that of the SEG in processing (R152). -/
theorem linksKept_idleSlot {last : Option LastOutcome}
    (h : (s.link k.1).Sound → ∀ g, (s.link k.1).segment = some g → g.slot ≠ k.2) : s.LinksKept (s.idleSlot k last) := by
  refine (linksKept_leaveWaiters s k).trans (linksKept_setSlot ?_)
  have hlink : (s.leaveWaiters k).link k.1 = s.link k.1 := by obtain ⟨i, k⟩ := k; cases i <;> rfl
  rw [hlink]
  exact fun hl => ⟨nofun, fun g hs hk => absurd hk (h hl g hs)⟩

/-- The SEG of an open slot answered, which starts its idle timer (R170). -/
theorem linkKept_segReply (h : (s.link k.1).segment = none) (tag : Byte) (status : Status) (data : List Byte) :
    s.LinkKept k.1 1 (s.segReply k tag status data) := by
  unfold State.segReply
  split
  · exact (State.LinksKept.refl s).linkKept _ zero_le_one
  · next t ht => exact (linksKept_setSlot_free h ht fun hs => hs.retimed _).then (linkKept_reply ..)

theorem linkKept_haltReply (h : (s.link k.1).segment = none) (tag : Byte) (cause : HaltCause) :
    s.LinkKept k.1 1 (s.haltReply k tag cause) := by
  unfold State.haltReply
  split
  · exact (State.LinksKept.refl s).linkKept _ zero_le_one
  · next t ht =>
    exact (linksKept_setSlot_free h ht fun hs => hs.halt cause).then
      (linkKept_segReply ((segment_setSlot ..).trans h) ..)

/-- A SEG no longer in processing frees its place (R124, R159). -/
theorem linkKept_dropSegment {g : Segment} (h : (s.link i).segment = some g) :
    s.LinkKept i (-1) (s.onLink i fun l => { l with segment := none }) := by
  refine linkKept_onLink s i _ _ ⟨⟨fun hl => { hl with segment := nofun }, ?_⟩, fun _ => rfl⟩
  unfold Link.generalOccupied
  rw [h]
  simp only [Option.toList_some, Option.toList_none, List.length_singleton, List.length_nil]
  omega

variable (s i k)

/-- A slot halted by another block's event: a SEG in processing of its own gives its place to its reply (R159, R162). -/
theorem linksKept_haltSlot (cause : HaltCause) : s.LinksKept (s.haltSlot k cause) := by
  unfold State.haltSlot
  split
  · exact .refl s
  · next t ht =>
    set x := s.setSlot k (.active (t.halt cause)) with hx
    have hseg : (x.link k.1).segment = (s.link k.1).segment := segment_setSlot ..
    have hother : (∀ g, (s.link k.1).segment = some g → g.slot ≠ k.2) → s.LinksKept x := fun hne => by
      refine linksKept_setSlot fun hl => ⟨?_, fun g hg hk => absurd hk (hne g hg)⟩
      rintro _ ⟨⟩
      exact ⟨(hl.transfers k.2 t ht).halt cause, hl.not_down ht⟩
    unfold State.withdrawSegment
    split
    · next hn => exact hother fun g hg => by rw [← hseg, hn] at hg; cases hg
    · next g hg =>
      split
      · have hdrop := linkKept_dropSegment (hseg ▸ hg)
        have hhalt : State.LinksKept (s.onLink k.1 fun l => { l with segment := none })
            ((s.onLink k.1 fun l => { l with segment := none }).setSlot k (.active (t.halt cause))) := by
          refine linksKept_setSlot_free (by simp) ?_ fun hs => hs.halt cause
          rw [← ht]
          exact slot_freed s k.1 k
        have hsame : ∀ j, ((x.withdraw (.dataPath k.1)).onLink k.1 fun l => { l with segment := none }).link j =
            ((s.onLink k.1 fun l => { l with segment := none }).setSlot k (.active (t.halt cause))).link j := by
          obtain ⟨i, k⟩ := k
          intro j
          cases i <;> cases j <;> rfl
        refine State.LinkKept.kept (((hdrop.then hhalt).then (linksKept_of_eq hsame)).trans
          (linkKept_segReply (by simp) ..)) (by omega)
      · next hne =>
        refine hother fun g' hg' => ?_
        rw [hseg, hg'] at hg
        cases hg
        exact hne

theorem linksKept_failWaiters (waiters : List SlotRef) : s.LinksKept (s.failWaiters waiters) :=
  (linksKept_foldl _ _ (fun _ _ => linksKept_haltSlot ..) s).trans (linksKept_slotReady ..)

theorem linksKept_slotSpaceGone (sp : SpaceId) : s.LinksKept (s.slotSpaceGone sp k) := by
  unfold State.slotSpaceGone
  split
  · exact .refl s
  · next t ht =>
    have huncount : s.LinksKept (s.setSlot k (.active { t with counted := false })) := by
      refine linksKept_setSlot fun hl => ⟨?_, fun g hg hk => ⟨_, rfl, ?_⟩⟩
      · rintro _ ⟨⟩
        exact ⟨(hl.transfers k.2 t ht).uncounted, hl.not_down ht⟩
      · have hf := hl.fits hg hk ht
        exact ⟨hf.phase, hf.timer, hf.toggle, hf.least, hf.greatest, hf.rest⟩
    split
    · split
      · exact huncount
      · exact huncount.trans (linksKept_haltSlot ..)
    · exact .refl s

/-- A slot whose idle timer runs out has no SEG in processing (R159, R172). -/
theorem linksKept_expireSlot : s.LinksKept (s.expireSlot k) := by
  unfold State.expireSlot
  split
  · exact .refl s
  · next t ht =>
    split
    · next hrun =>
      refine State.LinksKept.trans (linksKept_idleSlot fun hl g hg hk => ?_) (linksKept_raiseOn ..)
      rw [(hl.fits hg hk ht).timer] at hrun
      cases hrun
    · exact .refl s

/-! ### Copy jobs -/

theorem linksKept_makeJob (kind : JobKind) (source : FrameId) (waiters : List SlotRef) :
    s.LinksKept (s.makeJob kind source waiters) := by
  rcases makeJob_cases s kind source waiters with ⟨_, h⟩ | ⟨target, rest, phase, _, h⟩ <;> rw [h]
  · exact .refl s
  · refine .trans ?_ (linksKept_examineFall _)
    split
    · exact .trans (linksKept_of_links (by rfl) (by rfl)) (linksKept_present ..)
    · exact linksKept_of_links (by rfl) (by rfl)

theorem linksKept_makeMove (requester : Option (LinkId × Byte)) : s.LinksKept (s.makeMove f requester) :=
  (linksKept_setFrame ..).trans (linksKept_makeJob ..)

theorem linksKept_makePrivate (e : MapEntry) : s.LinksKept (s.makePrivate p e k) :=
  (linksKept_setEntry ..).trans (linksKept_makeJob ..)

theorem linksKept_clearCopyPending : s.LinksKept (s.clearCopyPending p) := by
  unfold State.clearCopyPending
  split
  · exact .refl s
  · exact linksKept_setEntry ..

theorem linksKept_retarget : s.LinksKept (s.retarget f p) := by
  unfold State.retarget
  split
  · exact .refl s
  · exact linksKept_setEntry ..

theorem linksKept_resolvePrivate (j : CopyJob) (uncorrectable : Bool) :
    s.LinksKept (s.resolvePrivate j p uncorrectable) := by
  have hreleased := (linksKept_release s j.target).trans (linksKept_clearCopyPending _ p)
  unfold State.resolvePrivate
  dsimp only
  split_ifs
  · exact hreleased.trans (linksKept_failWaiters ..)
  · exact hreleased.trans (linksKept_slotReady ..)
  · exact hreleased.trans (linksKept_slotReady ..)
  · exact ((((linksKept_setFrame ..).trans (linksKept_setFrame ..)).trans (linksKept_retarget ..)).trans
      (linksKept_clearCopyPending ..)).trans (linksKept_slotReady ..)

theorem linksKept_deferredRelease : s.LinksKept (s.deferredRelease f) := by
  unfold State.deferredRelease
  split
  · exact linksKept_release ..
  · exact .refl s

theorem linksKept_carry (j : CopyJob) : s.LinksKept (s.carry j) := by
  unfold State.carry
  refine .trans ?_ (linksKept_setFrame ..)
  split
  · exact linksKept_release ..
  · exact (linksKept_foldl _ _ (fun _ _ => linksKept_retarget ..) s).trans (linksKept_setFrame ..)

theorem linksKept_resolveMove (j : CopyJob) (requester : Option (LinkId × Byte)) (uncorrectable : Bool) :
    s.LinksKept (s.resolveMove j requester uncorrectable) := by
  unfold State.resolveMove
  split
  · exact ((((linksKept_setFrame ..).trans (linksKept_release ..)).trans (linksKept_slotReady ..)).trans
      (linksKept_answerRequester ..)).trans (linksKept_deferredRelease ..)
  · split
    · exact ((((linksKept_carry ..).trans (linksKept_setFrame ..)).trans (linksKept_retireFrame ..)).trans
        (linksKept_slotReady ..)).trans (linksKept_answerRequester ..)
    · exact ((((linksKept_carry ..).trans (linksKept_setFrame ..)).trans (linksKept_release ..)).trans
        (linksKept_slotReady ..)).trans (linksKept_answerRequester ..)

theorem linksKept_resolvePoisonedTarget (j : CopyJob) : s.LinksKept (s.resolvePoisonedTarget j) := by
  unfold State.resolvePoisonedTarget
  refine .trans (linksKept_release s j.target) ?_
  dsimp only
  split
  · exact (linksKept_clearCopyPending ..).trans (linksKept_slotReady ..)
  · exact (((linksKept_setFrame ..).trans (linksKept_slotReady ..)).trans (linksKept_answerRequester ..)).trans
      (linksKept_deferredRelease ..)

theorem linksKept_resolveJob (j : CopyJob) (uncorrectable : Bool) : s.LinksKept (s.resolveJob j uncorrectable) := by
  unfold State.resolveJob
  cases j.kind with
  | privateCopy p =>
    have resolved : ∀ x : State, x.LinksKept
        (if (x.frame j.target).poisoned then x.resolvePoisonedTarget j
          else x.resolvePrivate j p uncorrectable) := fun x => by
      split
      · exact linksKept_resolvePoisonedTarget ..
      · exact linksKept_resolvePrivate ..
    refine State.LinksKept.trans ?_ (resolved _)
    dsimp only
    split
    · exact linksKept_resolveFree ..
    · exact .refl s
  | move requester =>
    dsimp only
    split
    · exact linksKept_resolvePoisonedTarget ..
    · exact linksKept_resolveMove ..

theorem linksKept_startNextJob : s.LinksKept s.startNextJob := by
  unfold State.startNextJob
  split
  · exact .refl s
  · exact .trans (linksKept_of_links (by rfl) (by rfl)) (linksKept_present ..)

/-! ### The check engine -/

theorem linksKept_startCheck (work : CheckWork) : s.LinksKept (s.startCheck f work) :=
  .trans (linksKept_of_links (by rfl) (by rfl)) (linksKept_present ..)

theorem linksKept_advanceCursor : s.LinksKept s.advanceCursor := by
  unfold State.advanceCursor
  split
  · exact .trans (linksKept_of_links (by rfl) (by rfl)) (linksKept_raiseBoth ..)
  · exact linksKept_of_links (by rfl) (by rfl)

theorem linksKept_walkVisit : s.LinksKept s.walkVisit := by
  unfold State.walkVisit
  dsimp only
  split
  · exact .trans (.trans (linksKept_of_links (by rfl) (by rfl)) (linksKept_startCheck ..)) (linksKept_advanceCursor _)
  · exact .trans (linksKept_of_links (by rfl) (by rfl)) (linksKept_advanceCursor _)

theorem linksKept_nextWork (fuel : Nat) : ∀ s : State, s.LinksKept (s.nextWork fuel) := by
  induction fuel with
  | zero => exact fun s => .refl s
  | succ n ih =>
    intro s
    unfold State.nextWork
    split
    · exact .refl s
    · split
      · split
        · exact linksKept_startCheck ..
        · exact .trans (.trans (linksKept_of_links (by rfl) (by rfl)) (linksKept_answer ..)) (ih _)
      · split
        · exact linksKept_walkVisit s
        · exact .refl s

theorem linksKept_takeWork : s.LinksKept s.takeWork := linksKept_nextWork _ s

theorem linksKept_consequence : s.LinksKept (s.consequence f) := by
  unfold State.consequence
  dsimp only
  split
  · exact linksKept_resolveFree ..
  · split
    · exact .refl s
    · split
      · split
        · exact linksKept_makeMove ..
        · exact .refl s
      · exact linksKept_setFrame ..
  · exact linksKept_setFrame ..
  · exact .refl s
  · exact .refl s

theorem linksKept_endWork (work : CheckWork) (errors : List ErrorEvent) : s.LinksKept (s.endWork f work errors) := by
  unfold State.endWork
  split
  · exact linksKept_of_links (by rfl) (by rfl)
  · exact .trans (linksKept_of_links (by rfl) (by rfl)) (linksKept_answer ..)
  · exact .refl s

/-! ### Completions -/

theorem linksKept_resolveCleared : s.LinksKept (s.resolveCleared f) := by
  unfold State.resolveCleared
  dsimp only
  split
  · exact linksKept_retireFrame ..
  · split
    · exact linksKept_retireFrame ..
    · exact .trans (linksKept_of_links (by rfl) (by rfl)) (linksKept_setSupply ..)

theorem linksKept_completeClear : s.LinksKept (s.completeClear f) := by
  unfold State.completeClear
  have hresolved : s.LinksKept
      ((State.resolveCleared { s with clearQueue := s.clearQueue.erase f } f).answerRetireWait f) :=
    .trans (.trans (linksKept_of_links (by rfl) (by rfl)) (linksKept_resolveCleared ..)) (linksKept_answerRetireWait ..)
  refine .trans ?_ (linksKept_kickClearer _)
  split
  · exact hresolved.trans (linksKept_examineWaiters _)
  · exact hresolved

theorem linksKept_completeCopy (errors : List ErrorEvent) : s.LinksKept (s.completeCopy errors) := by
  unfold State.completeCopy
  split
  · exact .refl s
  · exact .trans (.trans (.trans (linksKept_of_links (by rfl) (by rfl)) (linksKept_commonEffects ..))
      (linksKept_resolveJob ..)) (linksKept_startNextJob _)

theorem linksKept_completeCheck (errors : List ErrorEvent) : s.LinksKept (s.completeCheck errors) := by
  unfold State.completeCheck
  split
  · exact .refl s
  · exact .trans (.trans (.trans (.trans (linksKept_of_links (by rfl) (by rfl)) (linksKept_commonEffects ..))
      (linksKept_consequence ..)) (linksKept_endWork ..)) (linksKept_takeWork _)

/-! ### Sessions -/

theorem linksKept_linkReset (rxdLow : Bool) : s.LinksKept (s.linkReset i rxdLow) := by
  rw [linkReset_eq]
  refine .trans (linksKept_onLink s i (fun _ => Link.initial (s.link i).rate rxdLow) (keeps_initial ..))
    (linksKept_of_eq fun j => ?_)
  rw [initial_eq]
  cases i <;> cases j <;> rfl

theorem linksKept_wakeLink : s.LinksKept (s.wakeLink i) := by
  unfold State.wakeLink
  split
  · refine linksKept_onLink s i _ ⟨⟨fun h => ?_, by rw [add_zero]; rfl⟩, id⟩
    exact h.retime (fun timer => if timer = .paused then .running else timer) (.inl rfl)
      (slots_withTimer _ _ rfl) nofun rfl rfl rfl
  · exact .refl s

theorem linksKept_goDormant : s.LinksKept (s.goDormant i) := by
  unfold State.goDormant
  split
  · refine linksKept_onLink s i _ ⟨⟨fun h => ?_, by rw [add_zero]; rfl⟩, id⟩
    exact h.retime (fun timer => if timer = .running then .paused else timer) (.inl rfl)
      (slots_withTimer _ _ rfl) nofun rfl rfl rfl
  · exact .refl s

end Sys2Proof.Machine
end

section
/-! SUPPORT. What a request, a segment's grant and the end of a step leave of the links. -/

namespace Sys2Proof.Machine

/-! ### Requests -/

section

variable (s : State) (i : LinkId) (tag : Byte)

theorem linkKept_serveHello (m : Message) (version : Byte) (rxdLow : Bool) :
    s.LinkKept i 1 (serveHello i m version rxdLow s) := by
  have up : ∀ x : State, x.LinksKept (x.onLink i fun l => { l with state := .up }) := fun x =>
    linksKept_onLink x i _ ⟨⟨fun h => { h with downEmpty := nofun }, by rw [add_zero]; rfl⟩, id⟩
  unfold serveHello
  split
  · exact linkKept_reject ..
  · refine State.LinksKept.then (.trans ?_ (up _)) (linkKept_reply ..)
    split
    · exact .refl s
    · exact linksKept_linkReset ..

theorem linksKept_setConfig (h : (s.link i).segment = none) (c : ConfigItem) (v : Nat) :
    s.LinksKept (s.setConfig i c v) := by
  cases c with
  | noticeMask =>
    exact linksKept_onLink_of_eq s i (fun l => { l with noticeMask := BitVec.ofNat 8 v }) rfl rfl rfl rfl rfl rfl
  | dormancyInterval =>
    exact linksKept_onLink_of_eq s i (fun l => { l with dormancyInterval := v }) rfl rfl rfl rfl rfl rfl
  | slotTimeout =>
    unfold State.setConfig State.setSlotTimeout
    refine linksKept_onLink s i _ ⟨⟨fun hl => ?_, by rw [add_zero]; rfl⟩, id⟩
    exact hl.retime (fun _ => Link.startedTimer { s.link i with slotTimeout := v }) (.inr h)
      (slots_withTimer _ _ rfl) id rfl rfl rfl
  | scrubInterval => exact linksKept_of_links (by rfl) (by rfl)
  | retireThreshold => exact linksKept_of_links (by rfl) (by rfl)
  | lowMark => exact .trans (linksKept_of_links (by rfl) (by rfl)) (linksKept_setSupply ..)

theorem linkKept_serveConfig (h : (s.link i).segment = none) (item : Byte) (v : Nat) :
    s.LinkKept i 1 (serveConfig i tag item v s) := by
  unfold serveConfig
  dsimp only
  split
  · exact linkKept_reply ..
  · split
    · split <;> exact linkKept_reply ..
    · split
      · exact (linksKept_setConfig s i h ..).then (linkKept_reply ..)
      · exact linkKept_reply ..

theorem linkKept_serveLinkStatus (clear : Byte) : s.LinkKept i 1 (serveLinkStatus i tag clear s) := by
  unfold serveLinkStatus
  split
  · exact linkKept_reply ..
  · refine State.LinksKept.then ?_ (linkKept_reply ..)
    split
    · exact linksKept_onLink_of_eq s i _ rfl rfl rfl rfl rfl rfl
    · exact .refl s

theorem linkKept_serveSpaceCreate (size : Nat) : s.LinkKept i 1 (serveSpaceCreate i tag size s) := by
  unfold serveSpaceCreate
  dsimp only
  split
  · exact linkKept_reply ..
  · split
    · exact linkKept_reply ..
    · exact (linksKept_of_eq fun j => link_setSpace ..).then (linkKept_reply ..)

theorem linkKept_serveSpaceDestroy (id : Byte) : s.LinkKept i 1 (serveSpaceDestroy i tag id s) := by
  unfold serveSpaceDestroy
  split
  · exact linkKept_reply ..
  · next sp r _ =>
    dsimp only
    set halted := slotRefs.foldl (fun s k => s.slotSpaceGone sp k) s
    have hhalted : s.LinksKept halted := linksKept_foldl _ _ (fun _ _ => linksKept_slotSpaceGone ..) s
    have habsent := (hhalted.trans (linksKept_detachAll halted (halted.presentPages sp))).trans
      (linksKept_of_eq fun j => link_setSpace _ j sp none)
    refine State.LinksKept.then ?_ (linkKept_reply ..)
    split
    · exact habsent
    · exact habsent.trans (linksKept_raiseOn ..)

theorem linkKept_serveSpaceGrant (id right : Byte) : s.LinkKept i 1 (serveSpaceGrant i tag id right s) := by
  unfold serveSpaceGrant
  split
  · exact linkKept_reply ..
  · next sp r _ =>
    split
    · exact linkKept_reply ..
    · next g _ =>
      have hgranted : s.LinksKept (s.setSpace sp (some { r with guest := g })) :=
        linksKept_of_eq fun j => link_setSpace ..
      refine State.LinksKept.then ?_ (linkKept_reply ..)
      split
      · exact hgranted
      · exact hgranted.trans (linksKept_raiseOn ..)

theorem linkKept_serveSpaceInfo (id : Byte) : s.LinkKept i 1 (serveSpaceInfo i tag id s) := by
  unfold serveSpaceInfo
  split <;> exact linkKept_reply ..

theorem linkKept_serveMap (id : Byte) (first count : Nat) : s.LinkKept i 1 (serveMap i tag id first count s) := by
  unfold serveMap
  split
  · exact linkKept_reply ..
  · next pages _ =>
    dsimp only
    split
    · exact linkKept_reply ..
    · have hmapped : ∀ (queue : List FrameId) (pairs : List (BackRef × FrameId)),
          s.LinksKept (pairs.foldl (fun s (p, f) => s.mapPage p f) { s with freeQueue := queue }) := fun queue pairs =>
        .trans (linksKept_of_links (by rfl) (by rfl)) (linksKept_foldl _ _ (fun _ _ => linksKept_mapPage ..) _)
      refine State.LinksKept.then ?_ (linkKept_reply ..)
      split
      · exact hmapped ..
      · exact (hmapped ..).trans (linksKept_examineFall _)

theorem linkKept_serveUnmap (id : Byte) (first count : Nat) : s.LinkKept i 1 (serveUnmap i tag id first count s) := by
  unfold serveUnmap
  split
  · exact linkKept_reply ..
  · exact (linksKept_detachAll ..).then (linkKept_reply ..)

theorem linkKept_serveProtect (id : Byte) (first count : Nat) (setting : Byte) :
    s.LinkKept i 1 (serveProtect i tag id first count setting s) := by
  unfold serveProtect
  split
  · exact linkKept_reply ..
  · split
    · exact linkKept_reply ..
    · exact (linksKept_changeEntries ..).then (linkKept_reply ..)

theorem linkKept_serveUsage (id : Byte) (first count : Nat) (clear : Byte) :
    s.LinkKept i 1 (serveUsage i tag id first count clear s) := by
  unfold serveUsage
  split
  · exact linkKept_reply ..
  · split
    · exact linkKept_reply ..
    · refine State.LinksKept.then ?_ (linkKept_reply ..)
      split
      · exact linksKept_changeEntries ..
      · exact .refl s

theorem linkKept_serveClone (source : Byte) (sFirst : Nat) (dest : Byte) (dFirst count : Nat) :
    s.LinkKept i 1 (serveClone i tag source sFirst dest dFirst count s) := by
  unfold serveClone
  split
  · exact linkKept_reply ..
  · exact (linksKept_foldl _ _ (fun _ _ => linksKept_clonePage ..) s).then (linkKept_reply ..)

theorem linkKept_serveOpen (h : (s.link i).segment = none) (hu : (s.link i).state ≠ .down) (slot direction id : Byte)
    (start length : Nat) : s.LinkKept i 1 (serveOpen i tag slot direction id start length s) := by
  unfold serveOpen
  dsimp only
  split
  · split
    · exact linkKept_reply ..
    · split
      · exact linkKept_reply ..
      · split
        · exact linkKept_reply ..
        · next hrange =>
          push Not at hrange
          refine State.LinksKept.then (linksKept_setSlot fun _ => ⟨?_, fun g hg => ?_⟩) (linkKept_reply ..)
          · rintro _ ⟨⟩
            exact ⟨opened_sound rfl hrange.2.1 rfl rfl, hu⟩
          · rw [h] at hg; cases hg
  · exact linkKept_reply ..

theorem linkKept_serveClose (h : (s.link i).segment = none) (slot : Byte) :
    s.LinkKept i 1 (serveClose i tag slot s) := by
  unfold serveClose
  split
  · exact linkKept_reply ..
  · split
    · exact linkKept_reply ..
    · refine State.LinksKept.then (linksKept_idleSlot fun _ g hg => ?_) (linkKept_reply ..)
      rw [h] at hg; cases hg

theorem linkKept_serveSlotInfo (slot : Byte) : s.LinkKept i 1 (serveSlotInfo i tag slot s) := by
  unfold serveSlotInfo
  split <;> exact linkKept_reply ..

theorem linkKept_serveFrameInfo (number : Nat) : s.LinkKept i 1 (serveFrameInfo i tag number s) := by
  unfold serveFrameInfo
  split <;> exact linkKept_reply ..

theorem linksKept_serveRetire (number : Nat) : s.LinksKept (serveRetire i tag number s) := by
  unfold serveRetire
  split
  · exact linksKept_answer ..
  · dsimp only
    split
    · exact linksKept_answer ..
    · split
      · exact linksKept_answer ..
      · split
        · exact (linksKept_retireFree ..).trans (linksKept_answer ..)
        · exact .trans (linksKept_of_links (by rfl) (by rfl)) (linksKept_setFrame ..)
        · split
          · exact linksKept_makeMove ..
          · exact linksKept_answer ..
        · exact linksKept_answer ..
        · exact linksKept_answer ..

theorem linksKept_serveCheck (number : Nat) : s.LinksKept (serveCheck i tag number s) := by
  unfold serveCheck
  split
  · exact linksKept_answer ..
  · split
    · exact .trans (linksKept_of_links (by rfl) (by rfl)) (linksKept_takeWork _)
    · exact linksKept_answer ..

theorem linksKept_serveWaitFree (count timeout : Nat) : s.LinksKept (serveWaitFree i tag count timeout s) := by
  unfold serveWaitFree
  split_ifs
  · exact linksKept_answer ..
  · exact linksKept_answer ..
  · exact linksKept_answer ..
  · exact linksKept_of_links (by rfl) (by rfl)

end

/-! ### SEG taken (R155–R159, R163) -/

/-- A SEG's processing begins on an open slot, whose idle timer stops (R159). -/
theorem Link.Sound.beginSegment {l : Link} (h : l.Sound) (hfree : l.segment = none) {k : SlotId} {t : Transfer}
    (ht : l.slots.get k = .active t) {g : Segment} (hk : g.slot = k) (hf : g.Fits { t with timer := .stopped }) :
    Link.Sound { l with
      slots := l.slots.set k.val (.active { t with timer := .stopped }) k.isLt, segment := some g } := by
  have hslot : Link.Sound { l with slots := l.slots.set k.val (.active { t with timer := .stopped }) k.isLt } := by
    refine h.setSlot k _ ?_ fun g hg => by rw [hfree] at hg; cases hg
    rintro _ ⟨⟩
    exact ⟨(h.transfers k t ht).retimed _, h.not_down ht⟩
  refine { hslot with segment := ?_ }
  rintro _ ⟨⟩
  exact ⟨_, by rw [get_set_slots, if_pos hk], hf⟩

theorem linkGrown_takeSegment {s : State} {k : SlotRef} {t : Transfer} (h : (s.link k.1).segment = none)
    (ht : s.slot k = .active t) (tag : Byte) (toggle : Bool) (body : List Byte) {count : Nat} (h1 : 1 ≤ count)
    (h64 : count ≤ 64) : s.LinkGrown k.1 (s.takeSegment k tag t toggle body count) := by
  unfold State.takeSegment
  split
  · exact (linkKept_segReply h ..).grown
  · next hphase =>
    split
    · split
      · exact (linkKept_segReply h ..).grown
      · exact (linkKept_haltReply h ..).grown
    · next htoggle =>
      split
      · exact (linkKept_segReply h ..).grown
      · next hfinal =>
        split
        · exact (linkKept_haltReply h ..).grown
        · have hdata : t.phase = .data := by
            cases hp : t.phase with
            | data => rfl
            | final => exact absurd hp hfinal
            | halted cause => exact absurd hp (hphase cause)
          refine State.LinkGrown.mk fun j => ?_
          rw [link_present]
          unfold State.setSlot
          rw [onLink_onLink, link_onLink]
          split
          · next hj =>
            subst hj
            refine ⟨fun hl => hl.beginSegment h ht rfl ?_, ?_⟩
            · have hlt := (hl.transfers k.2 t ht).inData hdata
              have hpos : 1 ≤ t.length - t.position := by omega
              exact ⟨hdata, rfl, by simpa using htoggle, le_min h1 hpos, (min_le_left _ _).trans h64, min_le_right _ _⟩
            · unfold Link.generalOccupied
              rw [h]
              simp only [Option.toList_some, Option.toList_none, List.length_singleton, List.length_nil]
              omega
          · exact (Link.Keeps.refl _).toGrows

theorem linkGrown_serveSeg (s : State) (i : LinkId) (tag slot toggle : Byte) (body : List Byte)
    (h : (s.link i).segment = none) (h1 : 1 ≤ body.length) (h64 : body.length ≤ 64) :
    s.LinkGrown i (serveSeg i tag slot toggle body s) := by
  unfold serveSeg
  split
  · exact (linkKept_reply ..).grown
  · split
    · exact (linkKept_reply ..).grown
    · next t ht =>
      dsimp only
      split
      · exact (linkKept_reply ..).grown
      · split
        · exact linkGrown_takeSegment h ht tag _ _ h1 h64
        · split
          · next hc => exact linkGrown_takeSegment h ht tag _ _ hc.1 hc.2
          · exact (linkKept_reply ..).grown
        · exact (linkKept_reply ..).grown

/-! ### Every request -/

/-- A request served occupies at most one more general place of its link, where no SEG is in processing (R124, R136). -/
theorem linkGrown_serve (s : State) (i : LinkId) (kind : RequestKind) (m : Message) (rxdLow : Bool)
    (hseg : (s.link i).segment = none) (hup : (s.link i).state ≠ .down ∨ kind = .hello)
    (hlen : kind.lengthOk m.payload.length = true) : s.LinkGrown i (serve i kind m rxdLow s) := by
  unfold serve
  split
  · exact (linkKept_serveHello ..).grown
  · exact (linkKept_reply ..).grown
  · exact (linkKept_reply ..).grown
  · exact (linkKept_serveConfig s i _ hseg ..).grown
  · exact (linkKept_serveLinkStatus ..).grown
  · exact (linkKept_reply ..).grown
  · exact (linkKept_serveSpaceCreate ..).grown
  · exact (linkKept_serveSpaceDestroy ..).grown
  · exact (linkKept_serveSpaceGrant ..).grown
  · exact (linkKept_serveSpaceInfo ..).grown
  · exact (linkKept_serveMap ..).grown
  · exact (linkKept_serveUnmap ..).grown
  · exact (linkKept_serveProtect ..).grown
  · exact (linkKept_serveClone ..).grown
  · exact (linkKept_serveUsage ..).grown
  · exact (linkKept_serveOpen s i _ hseg (hup.resolve_right nofun) ..).grown
  · next k toggle body hp =>
    simp only [hp, RequestKind.lengthOk, List.length_cons, decide_eq_true_eq] at hlen
    exact linkGrown_serveSeg s i _ k toggle body hseg (by omega) (by omega)
  · exact (linkKept_serveClose s i _ hseg ..).grown
  · exact (linkKept_serveSlotInfo ..).grown
  · exact (linkKept_serveFrameInfo ..).grown
  · exact (linksKept_serveRetire ..).grown i
  · exact (linksKept_serveCheck ..).grown i
  · exact (linksKept_serveWaitFree ..).grown i
  · exact (State.LinksKept.refl s).grown i

/-- What intake has checked of an accepted message (Table 7-5). -/
theorem intake_ok {l : Link} {m : Message} {kind : RequestKind} (h : l.intake m = .ok kind) :
    kind.lengthOk m.payload.length = true ∧ m.tag ≠ 0 ∧ (∀ e ∈ l.deferred, e.tag ≠ m.tag) ∧
      (l.state ≠ .down ∨ kind = .hello) ∧ (kind.deferred? = none ∨ l.deferred.length < 4) := by
  unfold Link.intake at h
  split at h
  · cases h
  · split_ifs at h with hlen htag huse hdown hbusy
    cases h
    refine ⟨by simpa using hlen, htag, by simpa using huse, ?_, ?_⟩
    · rw [not_and_or, not_not] at hdown
      exact hdown
    · rw [not_and_or, Option.not_isSome_iff_eq_none, Nat.not_le] at hbusy
      exact hbusy

/-- An accepted deferred request enters the table of a link that is not DOWN (R140, R141). -/
theorem linksKept_acceptDeferred {s : State} {i : LinkId} {m : Message} {kind : RequestKind}
    (h : (s.link i).intake m = .ok kind) : s.LinksKept (s.acceptDeferred i kind m.tag) := by
  obtain ⟨_, htag, hfresh, hup, hroom⟩ := intake_ok h
  unfold State.acceptDeferred
  split
  · exact .refl s
  · next d hd =>
    have hnot : (s.link i).state ≠ .down := hup.resolve_right fun e => by subst e; cases hd
    have hlt : (s.link i).deferred.length < 4 := hroom.resolve_left (by simp [hd])
    refine linksKept_onLink s i _ ⟨⟨fun hl => { hl with
      deferredBound := ?_, deferredDistinct := ?_, deferredTagged := ?_
      downEmpty := fun hdown => absurd hdown hnot }, ?_⟩, id⟩
    · rw [List.length_append]; exact hlt
    · rw [List.map_append, List.nodup_append]
      refine ⟨hl.deferredDistinct, List.nodup_singleton _, fun a ha b hb => ?_⟩
      obtain ⟨e, he, rfl⟩ := List.mem_map.1 ha
      obtain rfl : b = m.tag := by simpa using hb
      exact hfresh e he
    · intro e he
      rcases List.mem_append.1 he with he | he
      · exact hl.deferredTagged e he
      · obtain rfl := List.mem_singleton.1 he
        exact htag
    · rw [add_zero]; rfl

theorem link_acceptDeferred (s : State) (i : LinkId) (kind : RequestKind) (tag : Byte) :
    ((s.acceptDeferred i kind tag).link i).segment = (s.link i).segment ∧
      ((s.acceptDeferred i kind tag).link i).state = (s.link i).state := by
  unfold State.acceptDeferred
  split
  · exact ⟨rfl, rfl⟩
  · simp

/-- A message taken occupies at most one more general place of its link (R124, R136–R138). -/
theorem linkGrown_take (s : State) (i : LinkId) (m : Message) (rxdLow : Bool) (h : (s.link i).segment = none) :
    s.LinkGrown i (s.take i m rxdLow) := by
  unfold State.take
  split
  · exact (linkKept_reject ..).grown
  · next kind hk =>
    obtain ⟨hlen, _, _, hup, _⟩ := intake_ok hk
    obtain ⟨hsame, hstate⟩ := link_acceptDeferred s i kind m.tag
    exact (linksKept_acceptDeferred hk).grow (linkGrown_serve _ i kind m rxdLow (hsame.trans h) (hstate ▸ hup) hlen)

/-! ### A segment's grant (R159–R167) -/

/-- The transfer after an accepted segment (R164, R167). -/
theorem accepted_sound {g : Segment} {t t' : Transfer} (ht : t.Sound) (hf : g.Fits t) {data : List Byte}
    (hdata : t.direction = .write → data = []) (h : t' = { t with
      phase := if t.position + g.count = t.length then .final else .data
      position := t.position + g.count
      toggle := !t.toggle
      last := some { toggle := g.toggle, count := g.count, position := t.position + g.count, data := data } }) :
    t'.Sound := by
  subst h
  have hlt := ht.inData hf.phase
  have hrest := hf.rest
  refine ⟨?_, fun hp => ?_, fun hp => ?_, ?_⟩
  · dsimp only; omega
  · dsimp only at hp ⊢
    split at hp
    · cases hp
    · omega
  · dsimp only at hp ⊢
    split at hp
    · next he => exact ⟨he, rfl⟩
    · cases hp
  · rintro _ ⟨⟩
    exact ⟨by simp [hf.toggle], rfl, hdata⟩

section

variable {s : State} {k : SlotRef} {g : Segment} {t : Transfer}

theorem linkKept_acceptSegment (h : (s.link k.1).segment = none) (hu : (s.link k.1).state ≠ .down) (ht : t.Sound)
    (hf : g.Fits t) (pages : List BackRef) (data : List Byte) (hdata : t.direction = .write → data = []) :
    s.LinkKept k.1 1 (s.acceptSegment k g t pages data) := by
  have hmarked : ∀ j, (pages.foldl (State.changeEntry (markPage t.direction)) s).link j = s.link j := fun j =>
    foldl_keeps (fun x : State => x.link j = s.link j) _ pages (fun x p _ hx => by
      unfold State.changeEntry
      split
      · exact hx
      · exact (link_setEntry ..).trans hx) s rfl
  unfold State.acceptSegment
  refine ((linksKept_of_eq hmarked).trans (linksKept_setSlot fun _ => ⟨?_, fun g hg => ?_⟩)).then
    (linkKept_segReply ?_ ..)
  · rintro _ ⟨⟩
    exact ⟨accepted_sound ht hf hdata rfl, by rw [hmarked]; exact hu⟩
  · rw [hmarked, h] at hg; cases hg
  · rw [segment_setSlot, hmarked]; exact h

theorem linkState_commonEffects (finder : Finder) (es : List ErrorEvent) :
    ((s.commonEffects finder es).link k.1).state = (s.link k.1).state := by
  refine foldl_keeps (fun x : State => (x.link k.1).state = (s.link k.1).state) _ es (fun x e _ hx => ?_) s rfl
  unfold State.commonEffect
  split
  · exact (congrArg Link.state (link_setFrame ..)).trans hx
  · dsimp only
    split
    · exact (congrArg Link.state (link_setFrame ..)).trans hx
    · rw [link_raiseBoth]
      split
      · exact (congrArg Link.state (link_setFrame ..)).trans hx
      · exact (congrArg Link.state (link_setFrame ..)).trans hx

theorem linkKept_moveSegment (h : (s.link k.1).segment = none) (hu : (s.link k.1).state ≠ .down) (ht : t.Sound)
    (hf : g.Fits t) (parts : List Part) (pages : List BackRef) :
    s.LinkKept k.1 1 (s.moveSegment k g t parts pages) := by
  have hmet : ∀ (m : Memory) (finder : Finder) (es : List ErrorEvent),
      s.LinksKept (State.commonEffects { s with memory := m } finder es) := fun m finder es =>
    .trans (linksKept_of_eq fun j => link_memory ..) (linksKept_commonEffects ..)
  have hstate : ∀ (m : Memory) (finder : Finder) (es : List ErrorEvent),
      ((State.commonEffects { s with memory := m } finder es).link k.1).state ≠ .down := fun m finder es => by
    rw [linkState_commonEffects, link_memory]; exact hu
  unfold State.moveSegment
  split
  · next hd =>
    dsimp only
    split
    · exact (hmet ..).then (linkKept_acceptSegment (((hmet ..).link _).free h) (hstate _ _ _) ht hf _ _ (by simp [hd]))
    · exact (hmet ..).then (linkKept_haltReply (((hmet ..).link _).free h) ..)
  · dsimp only
    split
    · exact (hmet ..).then (linkKept_acceptSegment (((hmet ..).link _).free h) (hstate _ _ _) ht hf _ _ fun _ => rfl)
    · exact (hmet ..).then (linkKept_haltReply (((hmet ..).link _).free h) ..)

theorem linkKept_stopSegment (h : (s.link k.1).segment = none) (p : BackRef) (answer : PageAnswer) :
    s.LinkKept k.1 1 (s.stopSegment k g p answer) := by
  have waits : ∀ {x : State}, s.LinksKept x → s.LinkKept k.1 1 (x.segReply k g.tag .wait []) := fun hx =>
    hx.then (linkKept_segReply ((hx.link _).free h) ..)
  unfold State.stopSegment
  split
  · exact (State.LinksKept.refl s).linkKept _ zero_le_one
  · exact linkKept_haltReply h ..
  · exact waits (linksKept_joinWaiters ..)
  · exact waits (linksKept_joinWaiters ..)
  · split
    · exact waits (linksKept_leaveWaiters ..)
    · split
      · exact linkKept_haltReply h ..
      · exact waits ((linksKept_leaveWaiters ..).trans (linksKept_makePrivate ..))

end

/-- A segment granted gives its place to its reply (R124, R161). -/
theorem linksKept_grantSegment {s : State} {i : LinkId} (hs : (s.link i).Sound) : s.LinksKept (s.grantSegment i) := by
  unfold State.grantSegment
  split
  · exact .refl s
  · next g hg =>
    obtain ⟨t, ht, hf⟩ := hs.segment g hg
    have hdrop := linkKept_dropSegment hg
    have replied : ∀ {x : State}, State.LinkKept (s.onLink i fun l => { l with segment := none }) i 1 x →
        s.LinksKept x := fun hx => (hdrop.trans hx).kept le_rfl
    have hfree : ((s.onLink i fun l => { l with segment := none }).link i).segment = none := by simp
    have hup : ((s.onLink i fun l => { l with segment := none }).link i).state ≠ .down := by
      rw [link_onLink_same]; exact hs.not_down ht
    have hslot : (s.onLink i fun l => { l with segment := none }).slot (i, g.slot) = .active t :=
      (slot_freed s i (i, g.slot)).trans ht
    dsimp only
    rw [hslot]
    dsimp only
    split_ifs
    · split
      · exact replied (linkKept_moveSegment (k := (i, g.slot)) hfree hup (hs.transfers _ t ht) hf ..)
      · exact replied (linkKept_stopSegment (k := (i, g.slot)) hfree ..)
    · exact replied (linkKept_haltReply (k := (i, g.slot)) hfree ..)

theorem linksKept_grant {s : State} (hs : ∀ i, (s.link i).Sound) (c : Client) : s.LinksKept (s.grant c) := by
  have hserving : s.LinksKept (s.serving c) := linksKept_of_eq (link_serving s c)
  rw [grant_eq]
  by_cases hp : ∀ i, c ≠ .dataPath i
  · rcases runAccess_cases (s.serving c) c hp with ⟨he, _⟩ | ⟨_, _, _, _, he⟩ | ⟨_, _, _, _, he⟩ | ⟨_, _, _, _, he⟩
      <;> rw [he]
    · exact hserving
    all_goals exact hserving.trans (linksKept_of_eq fun j => link_begin ..)
  · push Not at hp
    obtain ⟨i, rfl⟩ := hp
    exact hserving.trans (linksKept_grantSegment (by rw [link_serving]; exact hs i))

/-! ### The end of a step -/

/-- The invariants of both links. -/
def State.LinksLawful (s : State) : Prop := ∀ i, (s.link i).Lawful

theorem State.LinksLawful.sound {s : State} (h : s.LinksLawful) (i : LinkId) : (s.link i).Sound :=
  ((Link.lawful_iff _).1 (h i)).1

theorem State.LinksKept.lawful {s t : State} (h : s.LinksKept t) (hs : s.LinksLawful) : t.LinksLawful := fun j => by
  obtain ⟨hsound, hplaces⟩ := (Link.lawful_iff _).1 (hs j)
  have := (h.link j).places
  exact (Link.lawful_iff _).2 ⟨(h.link j).sound hsound, by omega⟩

/-- A link that had a free place may occupy one more (R124). -/
theorem State.LinkGrown.lawful {s t : State} {i : LinkId} (h : s.LinkGrown i t) (hsound : ∀ j, (s.link j).Sound)
    (hplaces : ∀ j, (s.link j).generalOccupied + (if j = i then 1 else 0) ≤ 8) : t.LinksLawful := fun j => by
  have hgrows := (h.link j).places
  have hroom := hplaces j
  exact (Link.lawful_iff _).2 ⟨(h.link j).sound (hsound j), by split_ifs at hgrows hroom <;> omega⟩

theorem linksKept_settle (s : State) : s.LinksKept s.settle := ⟨fun j => by rw [link_settle]; exact keeps_settle _⟩

theorem endEvent_lawful {s : State} (h : s.LinksLawful) : s.endEvent.LinksLawful :=
  (linksKept_settle _).lawful
    (arbitrate_keeps State.LinksLawful (fun _ c _ _ hs => (linksKept_grant hs.sound c).lawful hs) 6 s h)

theorem canTake_of_nextLink {s : State} {i : LinkId} (h : s.nextLink = some i) : (s.link i).canTake = true := by
  unfold State.nextLink at h
  split at h
  · cases h
  · cases h; assumption
  · cases h; assumption
  · cases h; split <;> assumption

/-- The event in which an awaiting message is taken: its place goes to what it leads to (R124, R136). -/
theorem takeFirst_lawful {s : State} {i : LinkId} {m : Message} {rest : List Message}
    (hm : (s.link i).awaiting = m :: rest) (hfree : (s.link i).segment = none) (h : s.LinksLawful) :
    (s.takeFirst i m rest).LinksLawful := by
  set x := State.onLink { s with freeIndex := s.freeIndex + 1 } i fun l => { l with awaiting := rest } with hx
  have hsame : ∀ j, State.link { s with freeIndex := s.freeIndex + 1 } j = s.link j := fun j => by cases j <;> rfl
  have htaken : s.LinkKept i (-1) x := by
    refine (linksKept_of_eq hsame).then (linkKept_onLink _ i _ _ (.of_eq rfl rfl rfl rfl rfl ?_))
    rw [hsame]
    unfold Link.generalOccupied
    rw [hm, List.length_cons]
    dsimp only
    omega
  have hplaces : ∀ j, (x.link j).generalOccupied + (if j = i then 1 else 0) ≤ 8 := fun j => by
    have h8 := (h j).placesBound
    have hfreed := (htaken.link j).places
    split_ifs at hfreed ⊢ <;> omega
  have hgrown : x.LinkGrown i (x.take i m (s.rxdAtTaking i)) := linkGrown_take x i m _ ((htaken.link i).free hfree)
  exact endEvent_lawful (hgrown.lawful (fun j => (htaken.link j).sound (h.sound j)) hplaces)

theorem drain_lawful (n : Nat) : ∀ s : State, s.LinksLawful → (s.drain n).LinksLawful := by
  induction n with
  | zero => exact fun s h => h
  | succ n ih =>
    intro s h
    unfold State.drain
    split
    · exact h
    · next i hi =>
      split
      · exact h
      · next m rest hm =>
        have hfree : (s.link i).segment = none := by
          have := canTake_of_nextLink hi
          simp only [Link.canTake, Bool.and_eq_true, Option.isNone_iff_eq_none] at this
          exact this.1
        exact ih _ (takeFirst_lawful hm hfree h)

/-- The end of a step keeps what holds of the links. -/
theorem finish_lawful {s : State} (h : s.LinksLawful) : s.finish.LinksLawful := drain_lawful _ _ (endEvent_lawful h)

end Sys2Proof.Machine
end

section
/-! THEOREMS. Every step keeps what holds of the links (R124, R141, R150, R157, R159, R179). -/

namespace Sys2Proof.Machine

/-! ### Links that change in nothing that holds of them -/

/-- No invariant of a link reads its receiver, its count of discarded messages or its bit rate. -/
theorem State.Still.linksKept {s t : State} (h : s.Still t) : s.LinksKept t where
  link i := by
    obtain ⟨rx, discarded, rate, hi⟩ := h.lines i
    rw [hi]
    exact .of_eq rfl rfl rfl rfl rfl (by rw [add_zero]; rfl)

theorem State.Still.lawful {s t : State} (h : s.Still t) (hs : s.LinksLawful) : t.LinksLawful := h.linksKept.lawful hs

section

variable {s t : State} {i : LinkId}

/-! ### Messages received -/

/-- A sound message handed over is discarded, awaits intake in a general place, or is taken (R118, R124, R136). -/
theorem handOver_lawful (hs : s.LinksLawful) (m : Message) : (s.handOver i m).LinksLawful := by
  have heard : s.Still (s.heard i) := still_withRx s i _ Receiver.hunting rfl
  unfold State.handOver
  rw [← heard_eq]
  dsimp only
  split
  · refine State.Still.lawful (s := s) ?_ hs
    rw [heard_eq, onLink_onLink]
    exact still_discardFrame s i Receiver.hunting
  · next hfull =>
    have hlink : (s.heard i).LinksKept ((s.heard i).wakeLink i) := linksKept_wakeLink ..
    have hwoken : ((s.heard i).wakeLink i).LinksLawful := hlink.lawful (heard.lawful hs)
    have hroom := (hlink.link i).places
    split
    · refine finish_lawful (State.LinkGrown.lawful (i := i) (s := (s.heard i).wakeLink i) ?_ hwoken.sound fun j => ?_)
      · refine (linkKept_onLink _ i 1 _ (.of_eq rfl rfl rfl rfl rfl ?_)).grown
        unfold Link.generalOccupied
        rw [List.length_append, List.length_singleton]
        dsimp only
        omega
      · have := (hwoken j).placesBound
        split
        · next hj => subst hj; omega
        · exact this
    · next hfree =>
      have hseg : (((s.heard i).wakeLink i).link i).segment = none := by
        simpa using fun h => hfree (Or.inl h)
      refine finish_lawful ((linkGrown_take _ i m false hseg).lawful hwoken.sound fun j => ?_)
      have := (hwoken j).placesBound
      split
      · next hj => subst hj; omega
      · exact this

theorem receive_lawful (hs : s.LinksLawful) (m : Message) : (s.receive i m).LinksLawful := by
  unfold State.receive
  split
  · exact handOver_lawful hs m
  · exact hs

theorem byteReceived_lawful (hs : s.LinksLawful) {b : Byte} (h : execByteReceived i b s = .next t) : t.LinksLawful := by
  unfold execByteReceived at h
  split_ifs at h
  · split at h <;> cases h
    · exact (still_withRx s i _ _ rfl).lawful hs
    · exact (still_discardFrame ..).lawful hs
    · exact (still_discardFrame ..).lawful hs
    · exact handOver_lawful hs _
  · cases h; exact hs

/-! ### Discards, faults and breaks -/

theorem lenDiscard_lawful (hs : s.LinksLawful) {len : Byte} (h : execLinkFrameLenDiscard i len s = .next t) :
    t.LinksLawful := by
  unfold execLinkFrameLenDiscard at h
  split_ifs at h
  · split at h <;> cases h
    · exact (still_discardFrame ..).lawful hs
    · exact hs
  · cases h; exact hs

theorem checkDiscard_lawful (hs : s.LinksLawful) {b : Byte} (h : execLinkFrameCheckDiscard i b s = .next t) :
    t.LinksLawful := by
  unfold execLinkFrameCheckDiscard at h
  split_ifs at h
  · split at h <;> cases h
    · exact (still_discardFrame ..).lawful hs
    · exact hs
  · cases h; exact hs

theorem rxdReturnsHigh_lawful (hs : s.LinksLawful) (h : execRxdReturnsHigh i s = .next t) : t.LinksLawful := by
  unfold execRxdReturnsHigh at h
  split_ifs at h <;> cases h
  · exact hs
  · exact (still_discardFrame ..).lawful hs
  · exact (still_withRx s i _ _ rfl).lawful hs

theorem lineBreak_lawful (hs : s.LinksLawful) (h : execLineBreak i s = .next t) : t.LinksLawful := by
  unfold execLineBreak at h
  split_ifs at h <;> cases h
  · exact finish_lawful (((linksKept_linkReset s i true).trans
      (linksKept_onLink_of_eq _ i _ rfl rfl rfl rfl rfl rfl)).lawful hs)
  · exact hs

/-! ### The transmitter, the walk timer and the completions -/

/-- A link whose message has been sent: the message gives its place up, and a deferred reply its table entry (R124,
R140). -/
def Link.sent (l : Link) (m : Outgoing) : Link :=
  { l with
    sending := none
    deferred := if m.place = .deferred then l.deferred.filter fun e => e.tag ≠ m.tag else l.deferred }

/-- Everything the end of a sent message does (R125, R130). -/
theorem execMessageSent_eq {m : Outgoing} (hm : (s.link i).sending = some m) (low : Bool) :
    execMessageSent i low s = .next (State.finish
      (if m.place = .general ∧ m.kind = 0x82 then
        (s.onLink i fun l => l.sent m).linkReset i (low || (s.link i).rx.state = .low)
      else s.onLink i fun l => l.sent m)) := by
  unfold execMessageSent
  rw [hm]
  rfl

theorem keeps_sent (l : Link) (m : Outgoing) : l.Keeps 0 (l.sent m) := by
  have hsub : (l.sent m).deferred.Sublist l.deferred := by
    unfold Link.sent
    dsimp only
    split
    · exact List.filter_sublist
    · exact List.Sublist.refl _
  refine ⟨⟨fun h => { h with
    deferredBound := hsub.length_le.trans h.deferredBound
    deferredDistinct := h.deferredDistinct.sublist (hsub.map _)
    deferredTagged := fun e he => h.deferredTagged e (hsub.subset he)
    downEmpty := fun hd => ?_ }, ?_⟩, id⟩
  · obtain ⟨h1, h2, h3⟩ := h.downEmpty hd
    exact ⟨List.sublist_nil.1 (h1 ▸ hsub), h2, h3⟩
  · unfold Link.sent Link.generalOccupied
    simp only [Option.toList_none, List.countP_nil]
    omega

theorem messageSent_lawful (hs : s.LinksLawful) {low : Bool} (h : execMessageSent i low s = .next t) :
    t.LinksLawful := by
  cases hm : (s.link i).sending with
  | none =>
    unfold execMessageSent at h
    rw [hm] at h
    cases h
    exact hs
  | some m =>
    rw [execMessageSent_eq hm] at h
    cases h
    have hsent : s.LinksKept (s.onLink i fun l => l.sent m) := linksKept_onLink s i _ (keeps_sent _ m)
    refine finish_lawful (State.LinksKept.lawful ?_ hs)
    split
    · exact hsent.trans (linksKept_linkReset ..)
    · exact hsent

theorem walkTimerExpiry_lawful (hs : s.LinksLawful) (h : execWalkTimerExpiry s = .next t) : t.LinksLawful := by
  unfold execWalkTimerExpiry at h
  split_ifs at h <;> cases h
  · exact finish_lawful (State.LinksKept.lawful
      (.trans (linksKept_of_links (by rfl) (by rfl)) (linksKept_takeWork _)) hs)
  · exact hs

theorem linksKept_endAccess (s : State) : s.LinksKept s.endAccess := linksKept_of_links (by rfl) (by rfl)

theorem clearCompletion_lawful (hs : s.LinksLawful) (h : execClearCompletion s = .next t) : t.LinksLawful := by
  unfold execClearCompletion at h
  split at h <;> cases h
  · exact finish_lawful (((linksKept_endAccess s).trans (linksKept_completeClear ..)).lawful hs)
  · exact hs

theorem copyCompletion_lawful (hs : s.LinksLawful) (h : execCopyCompletion s = .next t) : t.LinksLawful := by
  unfold execCopyCompletion at h
  split at h <;> cases h
  · exact finish_lawful (((linksKept_endAccess s).trans (linksKept_completeCopy ..)).lawful hs)
  · exact hs

theorem checkCompletion_lawful (hs : s.LinksLawful) (h : execCheckCompletion s = .next t) : t.LinksLawful := by
  unfold execCheckCompletion at h
  split at h <;> cases h
  · exact finish_lawful (((linksKept_endAccess s).trans (linksKept_completeCheck ..)).lawful hs)
  · exact hs

/-! ### Every command -/

/-- A reset leaves both links at their reset values (R126, R134). -/
theorem reset_lawful {r0 r1 : BitVec 2} {low0 low1 : Bool} (h0 : s.link0 = Link.initial r0 low0)
    (h1 : s.link1 = Link.initial r1 low1) : s.kickClearer.finish.LinksLawful := by
  refine finish_lawful ((linksKept_kickClearer s).lawful fun i => ?_)
  cases i with
  | link0 => rw [link_def0, h0]; exact initial_lawful r0 low0
  | link1 => rw [link_def1, h1]; exact initial_lawful r1 low1

theorem exec_lawful (c : Instr) (hs : s.LinksLawful) (h : exec c s = .next t) : t.LinksLawful := by
  cases hm : messageOf c with
  | some p => rw [exec_message hm] at h; cases h; exact receive_lawful hs _
  | none =>
    cases c with
    | powerOn p0 p1 => rw [← Host.Outcome.next.inj h]; exact reset_lawful (s := s.poweredOn p0 p1) rfl rfl
    | resetN => rw [← Host.Outcome.next.inj h]; exact reset_lawful (s := s.resetHeld) rfl rfl
    | resetNRelease p0 p1 =>
      change Host.Outcome.next _ = _ at h
      split_ifs at h <;> cases h
      · exact (still_release ..).lawful hs
      · exact hs
    | rxdReturnsHigh i => exact rxdReturnsHigh_lawful hs h
    | lineBreak i => exact lineBreak_lawful hs h
    | interByteGapExpiry i =>
      change Host.Outcome.next _ = _ at h
      split_ifs at h <;> cases h
      · exact (still_discardFrame ..).lawful hs
      · exact hs
    | linkFrameLenDiscard i len => exact lenDiscard_lawful hs h
    | linkFrameCheckDiscard i b => exact checkDiscard_lawful hs h
    | generalPlacesFullDiscard i =>
      change Host.Outcome.next _ = _ at h
      split_ifs at h <;> cases h
      · exact (still_discardFrame ..).lawful hs
      · exact hs
    | messageSent i low => exact messageSent_lawful hs h
    | dormancyTimerExpiry i => cases h; exact finish_lawful ((linksKept_goDormant ..).lawful hs)
    | slotIdleTimerExpiry i k => cases h; exact finish_lawful ((linksKept_expireSlot ..).lawful hs)
    | waitFreeTimerExpiry i tag => cases h; exact finish_lawful ((linksKept_expireWaiter ..).lawful hs)
    | walkTimerExpiry => exact walkTimerExpiry_lawful hs h
    | clearCompletion => exact clearCompletion_lawful hs h
    | copyCompletion => exact copyCompletion_lawful hs h
    | checkCompletion => exact checkCompletion_lawful hs h
    | storageFault f w b => cases h; exact (linksKept_of_eq fun j => link_memory ..).lawful hs
    | byteReceived i b => exact byteReceived_lawful hs h
    | stopBitLow i =>
      change Host.Outcome.next _ = _ at h
      split_ifs at h <;> cases h
      · exact (still_withRx s i _ _ rfl).lawful hs
      · exact hs
    | _ => cases hm

end

/-- Settles O5: each command, the queue of commands being none of the links'. -/
theorem stepKeepsLinksLawful : Obligations.StepKeepsLinksLawful := by
  intro s t hs h
  unfold step at h
  split at h
  · cases h; exact hs
  · next c rest _ => exact exec_lawful c ((still_pending s rest).lawful hs) h

end Sys2Proof.Machine
end

section
/-! THEOREMS. CHECK, the cyclic redundancy check of R117, and the bytes of a link frame (R116). -/

namespace Sys2Proof.Machine

/-! ### One bit and one byte (R117) -/

theorem crcBit_eq (r : BitVec 16) (b : Bool) :
    crcBit r b = (r <<< 1) ^^^ (if (r.getLsbD 15 ^^ b) = true then 0x1021 else 0) := by
  have hmsb : r.msb = r.getLsbD 15 := rfl
  unfold crcBit
  rw [hmsb]
  split
  · rfl
  · exact BitVec.xor_zero.symm

/-- The bits of a byte, most significant first. -/
def byteBits (b : Byte) : List Bool := [7, 6, 5, 4, 3, 2, 1, 0].map b.getLsbD

theorem crcByte_eq_foldl (r : BitVec 16) (b : Byte) : crcByte r b = (byteBits b).foldl crcBit r := by
  unfold crcByte byteBits
  rw [List.foldl_map]

theorem crcBytes_append (r : BitVec 16) (a b : List Byte) : crcBytes r (a ++ b) = crcBytes (crcBytes r a) b :=
  List.foldl_append

theorem crcBytes_singleton (r : BitVec 16) (b : Byte) : crcBytes r [b] = crcByte r b := rfl

/-! ### The register that bits bring to 0 -/

/-- The register that some bits, taken into it, bring to 0. -/
def crcBefore (bits : List Bool) : BitVec 16 :=
  bits.foldr (fun b r => (r >>> 1) ||| (if b then 0x8000 else 0)) 0

theorem getLsbD_top (b : Bool) (i : Nat) :
    (if b then (0x8000 : BitVec 16) else 0).getLsbD i = (b && decide (i = 15)) := by
  cases b
  · simp
  · by_cases hi : i < 16
    · revert i; decide
    · have hne : i ≠ 15 := by omega
      simp [hne, BitVec.getLsbD_of_ge _ _ (Nat.not_lt.1 hi)]

/-- While no bit differs from the one shifted out, the bits stand in the register in their order. -/
theorem getLsbD_crcBefore (bits : List Bool) : ∀ i, i < 16 → (crcBefore bits).getLsbD i = bits.getD (15 - i) false := by
  induction bits with
  | nil => intro i _; simp [crcBefore]
  | cons b rest ih =>
    intro i hi
    have hstep : crcBefore (b :: rest) = (crcBefore rest >>> 1) ||| (if b then 0x8000 else 0) := rfl
    rw [hstep, BitVec.getLsbD_or, BitVec.getLsbD_ushiftRight, getLsbD_top]
    by_cases h : i = 15
    · subst h; simp
    · obtain ⟨k, hk⟩ : ∃ k, 15 - i = k + 1 := ⟨14 - i, by omega⟩
      rw [ih (1 + i) (by omega), hk, List.getD_cons_succ]
      have : 15 - (1 + i) = k := by omega
      simp [h, this]

/-- One bit taken backwards: an even register is one from which nothing was combined. -/
theorem crcBit_eq_iff (r v : BitVec 16) (b : Bool) (hv : v.getLsbD 0 = false) :
    crcBit r b = v ↔ r = (v >>> 1) ||| (if b then 0x8000 else 0) := by
  have hlow : (crcBit r b).getLsbD 0 = (r.getLsbD 15 ^^ b) := by
    rw [crcBit_eq, BitVec.getLsbD_xor]
    cases (r.getLsbD 15 ^^ b) <;> simp
  constructor
  · intro h
    have hb : (r.getLsbD 15 ^^ b) = false := by rw [← hlow, h, hv]
    have hshift : v = r <<< 1 := by rw [← h, crcBit_eq, hb]; simp
    refine BitVec.eq_of_getLsbD_eq fun i hi => ?_
    rw [BitVec.getLsbD_or, BitVec.getLsbD_ushiftRight, getLsbD_top, hshift, BitVec.getLsbD_shiftLeft]
    by_cases h15 : i = 15
    · subst h15
      simpa using hb
    · have hlt : 1 + i < 16 := by omega
      simp [h15, hlt]
  · intro h
    have hb : (r.getLsbD 15 ^^ b) = false := by
      rw [h, BitVec.getLsbD_or, BitVec.getLsbD_ushiftRight, getLsbD_top]
      simp
    rw [crcBit_eq, hb]
    refine BitVec.eq_of_getLsbD_eq fun i hi => ?_
    rw [BitVec.getLsbD_xor, BitVec.getLsbD_shiftLeft, h, BitVec.getLsbD_or, BitVec.getLsbD_ushiftRight, getLsbD_top]
    cases i with
    | zero => simpa using hv
    | succ k =>
      have hk : k ≠ 15 := by omega
      simp [hk, hi, Nat.add_comm]

/-- At most 16 bits bring one register alone to 0. -/
theorem foldl_crcBit_zero (bits : List Bool) : ∀ r : BitVec 16, bits.length ≤ 16 →
    (bits.foldl crcBit r = 0 ↔ r = crcBefore bits) := by
  induction bits with
  | nil => intro r _; rfl
  | cons b rest ih =>
    intro r h
    rw [List.length_cons] at h
    have heven : (crcBefore rest).getLsbD 0 = false := by
      rw [getLsbD_crcBefore rest 0 (by omega), List.getD_eq_default _ _ (by omega)]
    rw [List.foldl_cons, ih _ (by omega), crcBit_eq_iff _ _ _ heven]
    rfl

theorem crcBefore_append (high low : Byte) : crcBefore (byteBits high ++ byteBits low) = high ++ low := by
  refine BitVec.eq_of_getLsbD_eq fun i hi => ?_
  rw [getLsbD_crcBefore _ i hi, BitVec.getLsbD_append]
  interval_cases i <;> rfl

/-- The register ends at 0 exactly when the CHECK bytes are its value, high byte first (R117). -/
theorem crcBytes_zero_iff (r : BitVec 16) (bytes : List Byte) (high low : Byte) :
    crcBytes r (bytes ++ [high, low]) = 0 ↔ high ++ low = crcBytes r bytes := by
  have hbits : crcBytes r (bytes ++ [high, low]) = (byteBits high ++ byteBits low).foldl crcBit (crcBytes r bytes) := by
    rw [crcBytes_append, List.foldl_append, ← crcByte_eq_foldl, ← crcByte_eq_foldl]
    rfl
  rw [hbits, foldl_crcBit_zero _ _ (by simp [byteBits]), crcBefore_append, eq_comm]

/-! ### The bytes of a link frame (R116) -/

theorem wordBytes_eq (w : BitVec 16) : wordBytes w = [w.extractLsb' 8 8, w.extractLsb' 0 8] := by
  have high : u8 (w.toNat / 256) = w.extractLsb' 8 8 := by
    refine BitVec.eq_of_toNat_eq ?_
    simp [u8, Nat.shiftRight_eq_div_pow]
  have low : u8 w.toNat = w.extractLsb' 0 8 := by
    refine BitVec.eq_of_toNat_eq ?_
    simp [u8]
  unfold wordBytes be16
  rw [high, low]

theorem extract_append (w : BitVec 16) : w.extractLsb' 8 8 ++ w.extractLsb' 0 8 = w := by
  refine BitVec.eq_of_getLsbD_eq fun i hi => ?_
  rw [BitVec.getLsbD_append]
  interval_cases i <;> simp

/-- The bytes of a request's link frame: SYNC, those that CHECK covers, and CHECK (R116, R117). -/
theorem Message.wire_eq (m : Message) :
    let covered := m.kind :: m.tag :: u8 m.payload.length :: m.payload
    m.wire = 0xC3 :: (covered ++
      [(crcBytes 0xFFFF covered).extractLsb' 8 8, (crcBytes 0xFFFF covered).extractLsb' 0 8]) := by
  unfold Message.wire wireBytes
  dsimp only
  rw [wordBytes_eq]
  rfl

/-- The register after the digits 1 to 9 in ASCII (R117). -/
theorem crcBytes_digits : crcBytes 0xFFFF [0x31, 0x32, 0x33, 0x34, 0x35, 0x36, 0x37, 0x38, 0x39] = 0x29B1 := by
  decide +kernel

/-- Settles O14: the register is followed bit by bit, and backwards from 0 over the 16 bits of CHECK. -/
theorem checkCode : Obligations.CheckCode := by
  refine ⟨crcBit_eq, fun r b7 b6 b5 b4 b3 b2 b1 b0 b hb => ?_, fun m => ?_, crcBytes_digits, crcBytes_zero_iff 0xFFFF⟩
  · have hbits : byteBits b = [b7, b6, b5, b4, b3, b2, b1, b0] := hb
    rw [crcByte_eq_foldl, hbits]
    rfl
  · exact m.wire_eq

end Sys2Proof.Machine
end

section
/-! THEOREMS. The receiver: what a byte does in each of its states, the discards, and the line low (R116–R124). -/

namespace Sys2Proof.Machine

/-! ### The receiver's states -/

/-- The manual's reset values of a receiver are the model's (Table 6-6). -/
theorem afterReset_eq (rxdLow : Bool) : Receiver.afterReset rxdLow = resetReceiver rxdLow := by cases rxdLow <;> rfl

/-- A receiver that goes on in a state, the byte kept and taken into the register (R118). -/
def Receiver.keeping (rx : Receiver) (st : RxState) (b : Byte) : Receiver :=
  { rx with state := st, kept := rx.kept ++ [b], crc := crcByte rx.crc b, gapTimer := .running }

section

variable {rx : Receiver} {b : Byte}

/-- In HUNT only SYNC counts. -/
theorem takeByte_hunt (h : rx.state = .hunt) :
    rx.takeByte b = .keep (if b = 0xC3 then .begun [] else rx) := by
  unfold Receiver.takeByte
  rw [h]
  exact (apply_ite RxResult.keep ..).symm

/-- KIND and TAG. -/
theorem takeByte_header (h : rx.state = .header) (hk : rx.kept.length < 2) :
    rx.takeByte b = .keep (rx.keeping .header b) := by
  unfold Receiver.takeByte
  rw [h]
  exact if_pos (by rw [List.length_append, List.length_singleton]; omega)

/-- A LEN of at most 72. -/
theorem takeByte_len (h : rx.state = .header) (hk : rx.kept.length = 2) (hb : b.toNat ≤ 72) :
    rx.takeByte b = .keep (rx.keeping (if b = 0 then .check else .payload) b) := by
  unfold Receiver.takeByte
  rw [h]
  dsimp only
  rw [if_neg (by rw [List.length_append, List.length_singleton]; omega), if_neg (by omega)]
  split <;> rfl

/-- A LEN above 72 (R119). -/
theorem takeByte_lenDiscard (h : rx.state = .header) (hk : rx.kept.length = 2) (hb : 72 < b.toNat) :
    rx.takeByte b = .lenDiscard (rescan (rx.kept ++ [b])) := by
  unfold Receiver.takeByte
  rw [h]
  dsimp only
  rw [if_neg (by rw [List.length_append, List.length_singleton]; omega), if_pos hb]

/-- A payload byte but the last. -/
theorem takeByte_payload (h : rx.state = .payload) (hk : rx.kept.length + 1 < 3 + rx.len) :
    rx.takeByte b = .keep (rx.keeping .payload b) := by
  unfold Receiver.takeByte
  rw [h]
  exact if_pos (by rw [List.length_append, List.length_singleton]; exact hk)

/-- The last payload byte. -/
theorem takeByte_payload_last (h : rx.state = .payload) (hk : rx.kept.length + 1 = 3 + rx.len) :
    rx.takeByte b = .keep (rx.keeping .check b) := by
  unfold Receiver.takeByte
  rw [h]
  exact if_neg (by rw [List.length_append, List.length_singleton]; omega)

/-- The first CHECK byte. -/
theorem takeByte_check (h : rx.state = .check) (hk : rx.kept.length = 3 + rx.len) :
    rx.takeByte b = .keep (rx.keeping .check b) := by
  unfold Receiver.takeByte
  rw [h]
  exact if_pos (by rw [List.length_append, List.length_singleton]; omega)

/-- The second CHECK byte, by the register it leaves (R118, R121). -/
theorem takeByte_last (h : rx.state = .check) (hk : rx.kept.length = 4 + rx.len) :
    rx.takeByte b = if crcByte rx.crc b = 0 then
        .sound { kind := rx.kept.getD 0 0, tag := rx.kept.getD 1 0, payload := (rx.kept.drop 3).take rx.len }
      else .checkDiscard .hunting := by
  have first : ∀ n, n < 4 → (rx.kept ++ [b]).getD n 0 = rx.kept.getD n 0 := fun n hn =>
    List.getD_append _ _ _ _ (by omega)
  have body : ((rx.kept ++ [b]).drop 3).take rx.len = (rx.kept.drop 3).take rx.len := by
    rw [List.drop_append_of_le_length (by omega), List.take_append_of_le_length (by rw [List.length_drop]; omega)]
  unfold Receiver.takeByte
  rw [h]
  dsimp only
  rw [if_neg (by rw [List.length_append, List.length_singleton]; omega), first 0 (by omega), first 1 (by omega), body]

end

/-! ### The rows of the receiver -/

section

variable {s : State} {i : LinkId} {b : Byte}

@[simp] theorem link_withRx (rx : Receiver) : (s.withRx i rx).link i = { s.link i with rx := rx } := by
  unfold State.withRx
  exact link_onLink_same ..

theorem withRx_withRx (rx rx' : Receiver) : (s.withRx i rx).withRx i rx' = s.withRx i rx' := by
  unfold State.withRx
  exact onLink_onLink ..

theorem withRx_self : s.withRx i (s.link i).rx = s := onLink_id _ _ _ rfl

theorem receiving_iff : s.receiving i = true ↔ s.resetLow = false ∧ (s.link i).rx.state ≠ .low := by
  simp [State.receiving]

/-- A byte after which the receiver goes on. -/
theorem exec_byte_keep {rx : Receiver} (hr : s.receiving i = true) (ht : (s.link i).rx.takeByte b = .keep rx) :
    exec (.byteReceived i b) s = .next (s.withRx i rx) := by
  change execByteReceived i b s = _
  unfold execByteReceived
  rw [if_pos hr, ht]
  rfl

/-- The last byte of a sound link frame. -/
theorem exec_byte_sound {m : Message} (hr : s.receiving i = true) (ht : (s.link i).rx.takeByte b = .sound m) :
    exec (.byteReceived i b) s = .next (s.handOver i m) := by
  change execByteReceived i b s = _
  unfold execByteReceived
  rw [if_pos hr, ht]

/-- A byte that ends a link frame for its LEN, by both of its rows (log 18). -/
theorem exec_byte_lenDiscard {rx : Receiver} (hr : s.receiving i = true)
    (ht : (s.link i).rx.takeByte b = .lenDiscard rx) :
    exec (.linkFrameLenDiscard i b) s = .next (s.thrownAway i rx) ∧
      exec (.byteReceived i b) s = .next (s.thrownAway i rx) := by
  change execLinkFrameLenDiscard i b s = _ ∧ execByteReceived i b s = _
  unfold execLinkFrameLenDiscard execByteReceived
  rw [if_pos hr, if_pos hr, ht]
  exact ⟨rfl, rfl⟩

/-- A byte that ends a link frame for its CHECK, by both of its rows (log 18). -/
theorem exec_byte_checkDiscard {rx : Receiver} (hr : s.receiving i = true)
    (ht : (s.link i).rx.takeByte b = .checkDiscard rx) :
    exec (.linkFrameCheckDiscard i b) s = .next (s.thrownAway i rx) ∧
      exec (.byteReceived i b) s = .next (s.thrownAway i rx) := by
  change execLinkFrameCheckDiscard i b s = _ ∧ execByteReceived i b s = _
  unfold execLinkFrameCheckDiscard execByteReceived
  rw [if_pos hr, if_pos hr, ht]
  exact ⟨rfl, rfl⟩

/-- A message row is the hand-over of its message while the receiver takes characters (log 7). -/
theorem exec_message_handOver {c : Instr} {m : Message} (hc : messageOf c = some (i, m)) (hr : s.receiving i = true) :
    exec c s = .next (s.handOver i m) := by
  rw [exec_message hc, State.receive, if_pos hr]

/-- Hand-over does not read the receiver, which returns to HUNT (R118). -/
theorem handOver_withRx (rx : Receiver) (m : Message) : (s.withRx i rx).handOver i m = s.handOver i m := by
  have heard : (s.withRx i rx).heard i = s.heard i := by
    unfold State.withRx State.heard
    exact onLink_onLink ..
  unfold State.handOver
  rw [← heard_eq, ← heard_eq, heard]

end

/-- Settles O16: one equation of `Receiver.takeByte` for each state and place in the link frame. -/
theorem receiverTakesByte : Obligations.ReceiverTakesByte := by
  intro s i b hr
  dsimp only
  refine ⟨fun h => ?_, fun h hk => ?_, fun h hk hb => ?_, fun h hk => ?_, fun h hk => ?_, fun h hk => ?_,
    fun c m h hk hcrc hm hc => ?_⟩
  · rw [exec_byte_keep hr (takeByte_hunt h)]
    split
    · rfl
    · rw [withRx_self]
  · exact exec_byte_keep hr (takeByte_header h hk)
  · exact exec_byte_keep hr (takeByte_len h hk hb)
  · exact exec_byte_keep hr (takeByte_payload h hk)
  · exact exec_byte_keep hr (takeByte_payload_last h hk)
  · exact exec_byte_keep hr (takeByte_check h hk)
  · have hsound := takeByte_last (b := b) h hk
    rw [if_pos hcrc] at hsound
    rw [exec_byte_sound hr hsound, exec_message_handOver hc hr, hm]
    rfl

/-! ### Discards (R119–R121, R123, R124) -/

/-- The bytes of a discarded link frame examined again: it begins anew after the first SYNC among them (R119). -/
theorem rescan_three (kind tag len : Byte) : rescan [kind, tag, len] =
    if kind = 0xC3 then .begun [tag, len] else if tag = 0xC3 then .begun [len] else if len = 0xC3 then .begun []
    else resetReceiver false := rfl

/-- A sound message that finds every general place occupied is thrown away (R124). -/
theorem handOver_full {s : State} {i : LinkId} (h : 8 ≤ (s.link i).generalOccupied) (m : Message) :
    s.handOver i m = s.thrownAway i (resetReceiver false) := by
  have full : 8 ≤ ((s.heard i).link i).generalOccupied := by
    rw [link_heard_same]
    exact h
  unfold State.handOver
  rw [← heard_eq]
  refine (if_pos full).trans ?_
  rw [heard_eq, onLink_onLink]
  rfl

/-- Settles O17: the byte, the expiry or the message that ends each discarded link frame. -/
theorem discardsCounted : Obligations.DiscardsCounted := by
  refine ⟨fun s i hr => ⟨fun kind tag len h hk hlen => ?_, fun b h hk hcrc => ?_, fun hgap => ?_⟩,
    fun s i hr hfull => ⟨?_, ?_⟩⟩
  · have ht := takeByte_lenDiscard h (by rw [hk]; rfl) hlen
    rw [hk, List.cons_append, List.cons_append, List.nil_append, rescan_three] at ht
    exact exec_byte_lenDiscard hr ht
  · have ht := takeByte_last (b := b) h hk
    rw [if_neg hcrc] at ht
    exact exec_byte_checkDiscard hr ht
  · exact congrArg Host.Outcome.next (if_pos ⟨hr, hgap⟩)
  · exact congrArg Host.Outcome.next (if_pos ⟨hr, hfull⟩)
  · intro c m hc
    rw [exec_message_handOver hc hr, handOver_full hfull]

/-! ### The line low (R122) -/

/-- A receiver that takes characters is in a link frame exactly when it is not in HUNT. -/
theorem inFrame_eq {rx : Receiver} (h : rx.state ≠ .low) : rx.inFrame = decide (rx.state ≠ .hunt) := by
  unfold Receiver.inFrame
  cases hs : rx.state with
  | low => exact absurd hs h
  | hunt => rfl
  | header => rfl
  | payload => rfl
  | check => rfl

/-- Settles O18: the two rows written out, RXD being in LOW when it returns. -/
theorem lineLowFaults : Obligations.LineLowFaults := by
  refine fun s i => ⟨fun hr => ?_, fun hreset hlow => ?_⟩
  · rw [← inFrame_eq (receiving_iff.1 hr).2]
    exact congrArg Host.Outcome.next (if_pos hr)
  · change execRxdReturnsHigh i s = _
    unfold execRxdReturnsHigh
    rw [if_neg (by simp [hreset, hlow])]
    rfl

/-! ### The bytes of a link frame, one by one (R116, R118) -/

/-- A receiver that has kept some bytes of a link frame, each taken into the register. -/
def Receiver.inState (st : RxState) (kept : List Byte) : Receiver :=
  { state := st, kept := kept, crc := crcBytes 0xFFFF kept, gapTimer := .running, lowTimer := .stopped, cut := false }

section

variable (st : RxState) (kept : List Byte)

@[simp] theorem inState_kept : (Receiver.inState st kept).kept = kept := rfl
@[simp] theorem inState_crc : (Receiver.inState st kept).crc = crcBytes 0xFFFF kept := rfl
@[simp] theorem inState_len (kind tag len : Byte) (body : List Byte) :
    (Receiver.inState st ([kind, tag, len] ++ body)).len = len.toNat := rfl

theorem inState_keeping (st' : RxState) (b : Byte) :
    (Receiver.inState st kept).keeping st' b = .inState st' (kept ++ [b]) := by
  unfold Receiver.keeping Receiver.inState
  dsimp only
  rw [crcBytes_append, crcBytes_singleton]

end

/-- The commands that carry some bytes to a link. -/
abbrev bytesReceived (i : LinkId) (bytes : List Byte) : List Instr := bytes.map (.byteReceived i)

section

variable {s : State} {i : LinkId}

theorem execAll_cons {c : Instr} {t : State} (h : exec c s = .next t) (rest : List Instr) :
    execAll (c :: rest) s = execAll rest t := by
  rw [execAll, h]

theorem receiving_withRx (hs : s.resetLow = false) {rx : Receiver} (h : rx.state ≠ .low) :
    (s.withRx i rx).receiving i = true := by
  rw [receiving_iff, link_withRx]
  exact ⟨by simpa [State.withRx] using hs, h⟩

/-- A byte after which a receiver in a link frame goes on in a state. -/
theorem execAll_keeping (hs : s.resetLow = false) {st st' : RxState} {kept : List Byte} {b : Byte} (hst : st ≠ .low)
    (ht : (Receiver.inState st kept).takeByte b = .keep ((Receiver.inState st kept).keeping st' b)) (rest : List Byte) :
    execAll (bytesReceived i (b :: rest)) (s.withRx i (.inState st kept)) =
      execAll (bytesReceived i rest) (s.withRx i (.inState st' (kept ++ [b]))) := by
  have hbyte : exec (.byteReceived i b) (s.withRx i (.inState st kept)) =
      .next ((s.withRx i (.inState st kept)).withRx i ((Receiver.inState st kept).keeping st' b)) :=
    exec_byte_keep (receiving_withRx hs hst) (by rw [link_withRx]; exact ht)
  rw [withRx_withRx, inState_keeping] at hbyte
  exact execAll_cons hbyte _

/-- The state of the receiver before a byte of the payload, or before CHECK if none is left. -/
def bodyState (rest : List Byte) : RxState := if rest = [] then .check else .payload

/-- The bytes of a payload. -/
theorem execAll_payload (hs : s.resetLow = false) {kind tag len : Byte} (tail : List Byte) (rest : List Byte) :
    ∀ done : List Byte, done.length + rest.length = len.toNat →
      execAll (bytesReceived i (rest ++ tail)) (s.withRx i (.inState (bodyState rest) ([kind, tag, len] ++ done))) =
        execAll (bytesReceived i tail) (s.withRx i (.inState .check ([kind, tag, len] ++ (done ++ rest)))) := by
  induction rest with
  | nil => intro done _; rw [List.append_nil]; rfl
  | cons b rest ih =>
    intro done hlen
    rw [List.length_cons] at hlen
    have ht : (Receiver.inState .payload ([kind, tag, len] ++ done)).takeByte b =
        .keep ((Receiver.inState .payload ([kind, tag, len] ++ done)).keeping (bodyState rest) b) := by
      cases rest with
      | nil => exact takeByte_payload_last rfl (by rw [inState_kept, inState_len]; simp at hlen ⊢; omega)
      | cons c rest => exact takeByte_payload rfl (by rw [inState_kept, inState_len]; simp at hlen ⊢; omega)
    refine (execAll_keeping (st := .payload) hs nofun ht _).trans ?_
    have hrest := ih (done ++ [b]) (by rw [List.length_append, List.length_singleton]; omega)
    rwa [List.append_assoc done [b] rest] at hrest

/-- SYNC, KIND, TAG and a LEN of at most 72. -/
theorem execAll_header (hr : s.receiving i = true) (hhunt : (s.link i).rx.state = .hunt) {kind tag len : Byte}
    (hlen : len.toNat ≤ 72) (rest : List Byte) :
    execAll (bytesReceived i (0xC3 :: kind :: tag :: len :: rest)) s =
      execAll (bytesReceived i rest)
        (s.withRx i (.inState (if len = 0 then .check else .payload) [kind, tag, len])) := by
  have hs := (receiving_iff.1 hr).1
  have hsync : exec (.byteReceived i 0xC3) s = .next (s.withRx i (.inState .header [])) :=
    exec_byte_keep hr ((takeByte_hunt hhunt).trans (congrArg RxResult.keep (if_pos rfl)))
  rw [bytesReceived, List.map_cons, execAll_cons hsync]
  refine (execAll_keeping (st := .header) hs nofun (takeByte_header rfl (by simp)) _).trans ?_
  refine (execAll_keeping (st := .header) hs nofun (takeByte_header rfl (by simp)) _).trans ?_
  exact execAll_keeping (st := .header) hs nofun (takeByte_len rfl rfl hlen) _

/-- The last byte of a link frame that brings the register to 0. -/
theorem takeByte_sound {kind tag len high low : Byte} {payload : List Byte} (hlen : payload.length = len.toNat)
    (hcrc : crcBytes 0xFFFF ([kind, tag, len] ++ payload ++ [high] ++ [low]) = 0) :
    (Receiver.inState .check ([kind, tag, len] ++ payload ++ [high])).takeByte low =
      .sound { kind := kind, tag := tag, payload := payload } := by
  rw [crcBytes_append, crcBytes_singleton] at hcrc
  have hkept : ([kind, tag, len] ++ payload ++ [high]).length = 4 + len.toNat := by
    simp only [List.length_append, List.length_cons, List.length_nil]
    omega
  rw [takeByte_last rfl hkept, inState_crc, if_pos hcrc]
  change RxResult.sound ⟨kind, tag, (payload ++ [high]).take len.toNat⟩ = _
  rw [← hlen, List.take_left]

/-- The two CHECK bytes of a link frame whose register they bring to 0. -/
theorem execAll_check (hs : s.resetLow = false) {kind tag len high low : Byte} {payload : List Byte}
    (hlen : payload.length = len.toNat)
    (hcrc : crcBytes 0xFFFF ([kind, tag, len] ++ payload ++ [high, low]) = 0) :
    execAll (bytesReceived i [high, low]) (s.withRx i (.inState .check ([kind, tag, len] ++ payload))) =
      .next (s.handOver i { kind := kind, tag := tag, payload := payload }) := by
  have hkept : ([kind, tag, len] ++ payload).length = 3 + len.toNat := by
    simp only [List.length_append, List.length_cons, List.length_nil]
    omega
  have hlast := takeByte_sound hlen (high := high) (low := low) (by rw [List.append_assoc]; exact hcrc)
  have hsound := exec_byte_sound (receiving_withRx (i := i) hs (rx := .inState .check _) nofun)
    (by rw [link_withRx]; exact hlast)
  rw [handOver_withRx] at hsound
  exact (execAll_keeping (st := .check) hs nofun (takeByte_check rfl hkept) _).trans (execAll_cons hsound [])

end

/-- Settles O15: the link frame's bytes in order, each going on from the last, to the hand-over of the message. -/
theorem wireCarriesMessage : Obligations.WireCarriesMessage := by
  intro s i m c hc hlen hr hhunt
  have hs := (receiving_iff.1 hr).1
  have hcode : (u8 m.payload.length).toNat = m.payload.length := by
    rw [u8, BitVec.toNat_ofNat]
    omega
  have hstate : (if u8 m.payload.length = 0 then RxState.check else .payload) = bodyState m.payload := by
    unfold bodyState
    refine if_congr ?_ rfl rfl
    rw [← BitVec.toNat_inj, hcode, ← List.length_eq_zero_iff]
    exact Iff.rfl
  have hbody := fun tail => execAll_payload (i := i) (s := s) hs (kind := m.kind) (tag := m.tag)
    (len := u8 m.payload.length) tail m.payload [] (by rw [hcode]; exact Nat.zero_add _)
  have hcrc := (crcBytes_zero_iff 0xFFFF (m.kind :: m.tag :: u8 m.payload.length :: m.payload) _ _).2 (extract_append _)
  have hheader := fun rest => execAll_header hr hhunt (kind := m.kind) (tag := m.tag) (len := u8 m.payload.length)
    (by omega) rest
  rw [hstate] at hheader
  rw [m.wire_eq, exec_message_handOver hc hr]
  exact (hheader _).trans ((hbody _).trans (execAll_check hs hcode.symm hcrc))

end Sys2Proof.Machine
end

section
/-! THEOREMS. The release of RESET_N, the link resets, the transmitter and a link's lines (R115, R122, R124–R126, R130,
R131, R133–R135, R140, R184, R187). -/

namespace Sys2Proof.Machine

/-! ### Resets -/

/-- Settles O12: the release with RESET_N low, each receiver at its reset value. -/
theorem releaseSamplesStraps : Obligations.ReleaseSamplesStraps := by
  intro s p0 p1 h
  change execResetNRelease p0 p1 s = _
  unfold execResetNRelease
  rw [if_pos h, afterReset_eq, afterReset_eq]

/-- A link reset replaces the link whole, whatever was changed of it before (R134). -/
theorem unlinked_onLink (s : State) (i : LinkId) (c : Link → Link) (rx : Receiver)
    (h : (c (s.link i)).rate = (s.link i).rate) : (s.onLink i c).unlinked i rx = s.unlinked i rx := by
  unfold State.unlinked
  rw [link_onLink_same, h]
  cases i <;> rfl

/-- Settles O13: both resets are `State.unlinked`, after which the part is at rest. -/
theorem linkResetsClear : Obligations.LinkResetsClear := by
  refine ⟨fun s i hstable hreset hlow htimer => ?_, fun s i m low hstable hm hkind hplace => ?_⟩
  · change execLineBreak i s = _
    unfold execLineBreak
    rw [if_pos ⟨hreset, hlow, htimer⟩, linkReset_eq]
    have stopped : ((s.unlinked i (resetReceiver true)).onLink i fun l =>
        { l with rx := { l.rx with lowTimer := .stopped } }) =
        s.unlinked i { resetReceiver true with lowTimer := .stopped } := by
      unfold State.unlinked
      cases i <;> rfl
    rw [stopped, unlinked_finish s hstable]
    rfl
  · change execMessageSent i low s = _
    rw [execMessageSent_eq hm, if_pos ⟨hplace, hkind⟩, linkReset_eq, unlinked_onLink s i _ _ rfl,
      unlinked_finish s hstable]

/-! ### The transmitter and the lines -/

/-- Settles O20: the link's transmitter goes on at the end of the event. -/
theorem messageSentFreesPlace : Obligations.MessageSentFreesPlace := by
  intro s i m low hstable hm hother
  change execMessageSent i low s = _
  have sent : (s.onLink i fun l => l.sent m).finish = (s.onLink i fun l => l.sent m).settle :=
    Stable_finish hstable (onLink_arbiter ..) fun j => canTake_onLink s i j _ rfl rfl
  rw [execMessageSent_eq hm, if_neg hother, sent]
  rfl

section

variable {l : Link}

/-- A busy or dormant transmitter begins nothing (R125). -/
theorem transmit_still (h : l.sending ≠ none ∨ l.state = .dormant) : l.transmit = l := by
  unfold Link.transmit
  exact if_pos (h.imp_left Option.isSome_iff_ne_none.2)

/-- An idle transmitter takes the oldest message of its queue (R125). -/
theorem transmit_queue {m : Outgoing} {rest : List Outgoing} (hs : l.sending = none) (hd : l.state ≠ .dormant)
    (hq : l.queue = m :: rest) : l.transmit = { l with queue := rest, sending := some m } := by
  unfold Link.transmit
  rw [if_neg (by simp [hs, hd]), hq]

/-- An idle transmitter of an UP link with an empty queue takes the oldest unmasked notice (R184). -/
theorem transmit_notice {n : Notice} (hs : l.sending = none) (hu : l.state = .up) (hq : l.queue = [])
    (hn : l.nextNotice = some n) : l.transmit = { l with notices := l.notices.erase n, sending := some n.message } := by
  unfold Link.transmit
  rw [if_neg (by simp [hs, hu]), hq]
  dsimp only
  rw [if_pos hu, hn]

/-- A transmitter with nothing to send stays as it is. -/
theorem transmit_empty (hq : l.queue = []) (h : l.state ≠ .up ∨ l.nextNotice = none) : l.transmit = l := by
  unfold Link.transmit
  split
  · rfl
  · rw [hq]
    dsimp only
    rcases h with h | h
    · exact if_neg h
    · rw [h]
      exact ite_self l

theorem nextNotice_eq_none : l.nextNotice = none ↔ ∀ n ∈ l.notices, l.noticeMask.getLsbD n.classCode = true := by
  simp [Link.nextNotice, Link.masks]

/-- The oldest unmasked notice follows masked ones alone. -/
theorem nextNotice_append {before after : List Notice} {n : Notice} (hl : l.notices = before ++ n :: after)
    (hb : ∀ p ∈ before, l.noticeMask.getLsbD p.classCode = true) (hn : l.noticeMask.getLsbD n.classCode = false) :
    l.nextNotice = some n ∧ l.notices.erase n = before ++ after := by
  have hnot : n ∉ before := fun h => by rw [hb n h] at hn; cases hn
  constructor
  · have skipped : before.find? (fun p => !l.masks p) = none := by
      simpa [Link.masks] using hb
    unfold Link.nextNotice
    rw [hl, List.find?_append, skipped, Option.none_or]
    exact List.find?_cons_of_pos (by simpa [Link.masks] using hn)
  · rw [hl, List.erase_append_right _ hnot, List.erase_cons_head]

/-- ATTN is asserted on a DORMANT link with something to send (R187). -/
theorem attention_iff : l.attention = true ↔
    l.state = .dormant ∧ (l.queue ≠ [] ∨ ∃ n ∈ l.notices, l.noticeMask.getLsbD n.classCode = false) := by
  have unmasked : l.nextNotice.isSome = true ↔ ∃ n ∈ l.notices, l.noticeMask.getLsbD n.classCode = false := by
    rw [Option.isSome_iff_ne_none, Ne, nextNotice_eq_none]
    simp
  unfold Link.attention
  simp only [Bool.and_eq_true, Bool.or_eq_true, decide_eq_true_eq, unmasked, Bool.not_eq_true',
    List.isEmpty_eq_false_iff]

end

@[simp] theorem settle_sending (l : Link) : l.settle.sending = l.transmit.sending := rfl
@[simp] theorem settle_queue (l : Link) : l.settle.queue = l.transmit.queue := rfl
@[simp] theorem settle_notices (l : Link) : l.settle.notices = l.transmit.notices := rfl

/-- The end of a link's event changes what is sent, the queue, the notices, the dormancy timer and ATTN. -/
theorem settle_rest (l : Link) : l.settle = { l with
    sending := l.settle.sending, queue := l.settle.queue, notices := l.settle.notices
    dormancyTimer := l.settle.dormancyTimer, attn := l.settle.attn } := by
  unfold Link.settle
  rcases transmit_cases l with ⟨h, _⟩ | ⟨_, _, _, _, _, h⟩ | ⟨_, _, _, _, _, h⟩ <;> rw [h]

/-- Settles O19: the four cases of the transmitter, then the dormancy timer's condition and ATTN. -/
theorem transmitterAndLines : Obligations.TransmitterAndLines := by
  intro l
  dsimp only
  refine ⟨settle_rest l, fun h => ?_, fun m rest hs hd hq => ?_,
    fun before n after hs hu hq hl hb hn => ?_, fun hs hq h => ?_, ?_, ?_⟩
  · rw [settle_sending, settle_queue, settle_notices, transmit_still h]
    exact ⟨rfl, rfl, rfl⟩
  · rw [settle_sending, settle_queue, settle_notices, transmit_queue hs hd hq]
    exact ⟨rfl, rfl, rfl⟩
  · obtain ⟨hnext, herase⟩ := nextNotice_append hl hb hn
    rw [settle_sending, settle_queue, settle_notices, transmit_notice hs hu hq hnext]
    exact ⟨rfl, hq, herase⟩
  · rw [settle_sending, settle_queue, settle_notices, transmit_empty hq (h.imp_right nextNotice_eq_none.2)]
    exact ⟨hs, hq, rfl⟩
  · change l.transmit.dormancyCondition = _
    unfold Link.dormancyCondition
    rw [transmit_state, transmit_dormancyInterval, settle_sending]
  · change l.transmit.attention = true ↔ _
    rw [attention_iff, transmit_state, transmit_noticeMask, settle_queue, settle_notices]

end Sys2Proof.Machine
end

section
/-! THEOREMS. Dormancy and waking, and a message that is refused, that awaits intake, or that is taken from those that
await; HELLO, GOODBYE and WAKE (R128–R132, R136–R138, R149, R171, R187, R197). -/

namespace Sys2Proof.Machine

variable {s : State} {i : LinkId} {m : Message}

/-- A change of one link of a part at rest: its transmitter and lines act on that link alone. -/
theorem Stable_settle_onLink (h : s.Stable) (i : LinkId) (c : Link → Link) :
    (s.onLink i c).settle = s.onLink i fun l => (c l).settle := by
  have h0 : s.link0.settle = s.link0 := h.settled .link0
  have h1 : s.link1.settle = s.link1 := h.settled .link1
  cases i <;> simp [State.settle, State.onLink, State.setLink, h0, h1]

/-! ### Dormancy (R131, R171) -/

/-- The expiry of a running dormancy timer. -/
theorem goDormant_running (h : (s.link i).dormancyTimer = .running) : s.goDormant i = s.onLink i fun l => { l with
    state := .dormant
    dormancyTimer := .stopped
    slots := l.slots.map fun k => k.withTimer fun timer => if timer = .running then .paused else timer } := by
  unfold State.goDormant
  rw [if_pos h]
  refine onLink_congr s i _ _ ?_
  refine congrArg (fun slots => { s.link i with state := .dormant, dormancyTimer := .stopped, slots := slots }) ?_
  exact slots_withTimer _ (fun timer => if timer = .running then .paused else timer) rfl

/-- The dormancy timer of a settled link runs only with nothing to send (R125, R131, R184). -/
theorem idle_of_dormancyTimer {l : Link} (hl : l.settle = l) (hr : l.dormancyTimer = .running) :
    l.queue = [] ∧ l.nextNotice = none := by
  have running : l.transmit.dormancyCondition = .running := (congrArg Link.dormancyTimer hl).trans hr
  unfold Link.dormancyCondition at running
  obtain ⟨hup, -, hidle⟩ : l.transmit.state = .up ∧ l.transmit.dormancyInterval ≠ 0 ∧ l.transmit.sending = none := by
    by_contra hnot
    rw [if_neg hnot] at running
    cases running
  rw [transmit_state] at hup
  rcases transmit_cases l with ⟨ht, hbusy | ⟨hq, hn⟩⟩ | ⟨_, _, _, _, _, ht⟩ | ⟨_, _, _, _, _, ht⟩
  · rw [ht] at hidle
    simp [hidle, hup] at hbusy
  · exact ⟨hq, hn.resolve_left (not_not_intro hup)⟩
  · rw [ht] at hidle; cases hidle
  · rw [ht] at hidle; cases hidle

/-- A DORMANT link with nothing to send keeps ATTN deasserted (R187). -/
theorem settle_dormant {l : Link} (hd : l.state = .dormant) (hq : l.queue = []) (hn : l.nextNotice = none) :
    l.settle = { l with dormancyTimer := .stopped, attn := false } := by
  unfold Link.settle
  rw [transmit_still (.inr hd)]
  simp [Link.dormancyCondition, Link.attention, hd, hq, hn]

/-- Settles O21: a link whose dormancy timer runs has nothing to send, so ATTN stays deasserted at the event's end. -/
theorem dormancyExpiryPauses : Obligations.DormancyExpiryPauses := by
  intro s i hstable hrunning
  obtain ⟨hqueue, hnotice⟩ := idle_of_dormancyTimer (hstable.settled i) hrunning
  change Host.Outcome.next (s.goDormant i).finish = _
  rw [goDormant_running hrunning,
    Stable_finish hstable (onLink_arbiter ..) fun j => canTake_onLink s i j _ rfl rfl, Stable_settle_onLink hstable]
  exact congrArg _ (onLink_congr s i _ _ (settle_dormant rfl hqueue hnotice))

/-! ### Intake refuses a message (R137, R138) -/

/-- A link that takes messages between two events has none awaiting intake (R136). -/
theorem Stable_awaiting (h : s.Stable) (hseg : (s.link i).segment = none) : (s.link i).awaiting = [] := by
  simpa [Link.canTake, hseg] using h.taken i

/-- A message on a link that takes messages and is not DORMANT is taken at once. -/
theorem Stable_handOver (h : s.Stable) (hd : (s.link i).state ≠ .dormant) (hp : (s.link i).generalOccupied < 8)
    (hseg : (s.link i).segment = none) : s.handOver i m = ((s.heard i).take i m false).finish := by
  rw [handOver_take s i m hp hseg (Stable_awaiting h hseg), wakeLink_of_not_dormant _ _ (by simpa using hd)]

/-- A message that intake refuses is answered with a REJECT of the check's code (R138, R197). -/
theorem take_refused {code : Byte} (b : Bool) (h : refusalCode? (s.link i) m = some code) : s.take i m b = s.enqueue i
    { kind := 0x7E, tag := if m.tag = 0 then 255 else m.tag, payload := [m.kind, code], place := .general } := by
  rw [← intake_refusal] at h
  unfold State.take
  cases hi : (s.link i).intake m with
  | ok k => rw [hi] at h; cases h
  | error st =>
    rw [hi] at h
    cases h
    rfl

/-- A message that only joins the transmit queue leaves the arbiter and intake nothing to do. -/
theorem Stable_enqueue_finish (h : s.Stable) (o : Outgoing) :
    ((s.heard i).enqueue i o).finish = ((s.heard i).enqueue i o).settle :=
  Stable_finish h (by rw [enqueue_arbiter, heard_arbiter]) fun j =>
    (canTake_onLink _ i j _ rfl rfl).trans (canTake_heard ..)

/-- Settles O23: intake does not read the receiver, and a REJECT only joins the queue. -/
theorem intakeRefuses : Obligations.IntakeRefuses := by
  intro s i c m code hstable hreceiving hd hp hseg hc hcode
  have heardCode : refusalCode? ((s.heard i).link i) m = some code := by rw [link_heard_same]; exact hcode
  rw [exec_message_handOver hc hreceiving, Stable_handOver hstable hd hp hseg, take_refused false heardCode,
    Stable_enqueue_finish hstable]

/-! ### A DORMANT link wakes (R132, R171) -/

/-- A link returned to UP, its paused slot timers resumed. -/
def Link.woken (l : Link) : Link :=
  { l with
    state := .up
    slots := l.slots.map fun k => k.withTimer fun timer => if timer = .paused then .running else timer }

theorem wakeLink_dormant (h : (s.link i).state = .dormant) : s.wakeLink i = s.onLink i Link.woken := by
  unfold State.wakeLink
  rw [if_pos h]
  refine onLink_congr s i _ _ ?_
  refine congrArg (fun slots => { s.link i with state := .up, slots := slots }) ?_
  exact slots_withTimer _ (fun timer => if timer = .paused then .running else timer) rfl

/-- A free general place is still free when the link frame has been heard (R124). -/
theorem heard_room (hp : (s.link i).generalOccupied < 8) : ¬8 ≤ ((s.heard i).link i).generalOccupied := by
  rw [link_heard_same]
  exact Nat.not_le.2 hp

/-- The hand-over of a message to a DORMANT link with a place wakes the link first. -/
theorem handOver_dormant (hd : (s.link i).state = .dormant) (hp : (s.link i).generalOccupied < 8) :
    s.handOver i m = (s.onLink i Link.woken).handOver i m := by
  have awake : ((s.onLink i Link.woken).heard i).wakeLink i = (s.heard i).wakeLink i := by
    rw [wakeLink_dormant (s := s.heard i) (by simpa using hd), wakeLink_of_not_dormant _ _ (by simp [Link.woken]),
      heard_eq, heard_eq, onLink_onLink, onLink_onLink]
    rfl
  have wokenRoom : ((s.onLink i Link.woken).link i).generalOccupied < 8 := by
    rw [link_onLink_same]
    exact hp
  unfold State.handOver
  rw [← heard_eq, ← heard_eq, if_neg (heard_room hp), if_neg (heard_room wokenRoom), awake]

/-- Settles O24: hand-over wakes the link before it does anything else. -/
theorem dormantLinkWakes : Obligations.DormantLinkWakes := by
  intro s i c m hc hr hd hp
  have wokenReceiving : (s.onLink i Link.woken).receiving i = true := by
    obtain ⟨hreset, hlow⟩ := receiving_iff.1 hr
    rw [receiving_iff, link_onLink_same, onLink_resetLow]
    exact ⟨hreset, hlow⟩
  have woken := exec_message_handOver hc wokenReceiving
  rw [← handOver_dormant hd hp, ← exec_message_handOver hc hr] at woken
  exact woken.symm

/-! ### A message awaits intake (R136) -/

/-- A message handed over while a SEG of its link is in processing. -/
theorem handOver_awaits (hd : (s.link i).state ≠ .dormant) (hp : (s.link i).generalOccupied < 8)
    (hseg : (s.link i).segment ≠ none) : s.handOver i m =
      (s.onLink i fun l => { l with rx := Receiver.hunting, awaiting := l.awaiting ++ [m] }).finish := by
  have busy : ((s.heard i).link i).segment.isSome := by
    rw [link_heard_same]
    exact Option.isSome_iff_ne_none.2 hseg
  unfold State.handOver
  rw [← heard_eq, if_neg (heard_room hp), wakeLink_of_not_dormant _ _ (by simpa using hd)]
  refine (if_pos (.inl busy)).trans ?_
  rw [heard_eq, onLink_onLink]

/-- The transmitter reads neither the receiver nor the messages awaiting intake. -/
theorem transmit_rx_awaiting (l : Link) (rx : Receiver) (messages : List Message) :
    { l with rx := rx, awaiting := messages }.transmit = { l.transmit with rx := rx, awaiting := messages } := by
  rcases transmit_cases l with ⟨ht, hstill | ⟨hq, hn⟩⟩ | ⟨hs, hd, _, _, hq, ht⟩ | ⟨hs, hu, hq, _, hn, ht⟩ <;> rw [ht]
  · exact transmit_still hstill
  · exact transmit_empty hq hn
  · exact transmit_queue hs hd hq
  · exact transmit_notice hs hu hq hn

theorem settle_rx_awaiting (l : Link) (rx : Receiver) (messages : List Message) :
    { l with rx := rx, awaiting := messages }.settle = { l.settle with rx := rx, awaiting := messages } := by
  unfold Link.settle
  rw [transmit_rx_awaiting]
  rfl

/-- Settles O25: the message joins those that await, and a SEG in processing keeps them all from being taken. -/
theorem messageAwaitsSegment : Obligations.MessageAwaitsSegment := by
  intro s i c m hstable hc hr hd hp hseg
  have untaken : ∀ j, (State.link (s.onLink i fun l =>
      { l with rx := Receiver.hunting, awaiting := l.awaiting ++ [m] }) j).canTake = (s.link j).canTake := fun j => by
    rw [link_onLink]
    split
    · next hj =>
      subst hj
      simp [Link.canTake, Option.isNone_eq_false_iff.2 (Option.isSome_iff_ne_none.2 hseg)]
    · rfl
  rw [exec_message_handOver hc hr, handOver_awaits hd hp hseg, Stable_finish hstable (onLink_arbiter ..) untaken,
    Stable_settle_onLink hstable]
  refine congrArg _ (onLink_congr s i _ _ ?_)
  rw [settle_rx_awaiting, hstable.settled i]
  rfl

/-! ### Messages awaiting intake are taken (R136) -/

/-- The number of messages that await intake. -/
def State.awaitingCount (s : State) : Nat := s.link0.awaiting.length + s.link1.awaiting.length

theorem drain_succ_eq {m : Message} {rest : List Message} (n : Nat) (hi : s.nextLink = some i)
    (hm : (s.link i).awaiting = m :: rest) : s.drain (n + 1) = (s.takeFirst i m rest).drain n := by
  simp only [State.drain, hi, hm]
  rfl

/-- More fuel than messages await makes no difference. -/
theorem drain_succ_of_enough (n : Nat) : ∀ s : State, s.awaitingCount ≤ n → s.drain (n + 1) = s.drain n := by
  induction n with
  | zero =>
    intro s h
    have taken := drain_taken 0 s h
    rw [drain_none s 1 taken]
    rfl
  | succ n ih =>
    intro s h
    cases hi : s.nextLink with
    | none => simp only [State.drain, hi]
    | some i =>
      cases hm : (s.link i).awaiting with
      | nil => simp only [State.drain, hi, hm]
      | cons m rest =>
        have fewer : (s.takeFirst i m rest).awaitingCount < s.awaitingCount := takeFirst_awaiting s i m rest hm
        rw [drain_succ_eq (n + 1) hi hm, drain_succ_eq n hi hm, ih _ (by omega)]

theorem drain_of_enough {n : Nat} (h : s.awaitingCount ≤ n) : s.drain n = s.drain s.awaitingCount := by
  induction n, h using Nat.le_induction with
  | base => rfl
  | succ n hn ih => rw [drain_succ_of_enough n s hn, ih]

/-- The level of RXD matters to the taking of a HELLO alone (R122). -/
theorem serve_rxdLow {k : RequestKind} (h : k ≠ .hello) (b b' : Bool) : serve i k m b s = serve i k m b' s := by
  unfold serve
  split
  · exact absurd rfl h
  all_goals rfl

/-- Intake accepts a message as the request that its KIND names. -/
theorem intake_kind {l : Link} {k : RequestKind} (h : l.intake m = .ok k) : m.kind = k.code := by
  unfold Link.intake at h
  split at h
  · cases h
  · next hk =>
    split_ifs at h
    cases h
    exact (requestKind_some _ _ hk).symm

theorem take_rxdLow (h : m.kind ≠ 0x01) (b b' : Bool) : s.take i m b = s.take i m b' := by
  unfold State.take
  cases hi : (s.link i).intake m with
  | error st => rfl
  | ok k => exact serve_rxdLow (fun hk => h ((intake_kind hi).trans (congrArg RequestKind.code hk))) b b'

theorem nextLink_eq (hi : (s.link i).canTake = true) (hother : (s.link i.other).canTake = false) :
    s.nextLink = some i := by
  cases i <;> simp_all [State.nextLink, State.link, LinkId.other]

/-- The end of a step after whose event exactly one link can take a message (R136). -/
theorem finish_taken {rest : List Message} (hseg : (s.endEvent.link i).segment = none)
    (hm : (s.endEvent.link i).awaiting = m :: rest) (hother : (s.endEvent.link i.other).canTake = false) :
    s.finish = (State.take
      (State.onLink { s.endEvent with freeIndex := s.endEvent.freeIndex + 1 } i fun l => { l with awaiting := rest })
      i m (s.endEvent.rxdAtTaking i)).finish := by
  have next : s.endEvent.nextLink = some i := nextLink_eq (by simp [Link.canTake, hseg, hm]) hother
  have fewer : (s.endEvent.takeFirst i m rest).awaitingCount < s.endEvent.awaitingCount :=
    takeFirst_awaiting s.endEvent i m rest hm
  obtain ⟨n, hn⟩ : ∃ n, s.endEvent.awaitingCount = n + 1 := ⟨s.endEvent.awaitingCount - 1, by omega⟩
  calc s.finish = s.endEvent.drain (n + 1) := congrArg s.endEvent.drain hn
    _ = (s.endEvent.takeFirst i m rest).drain n := drain_succ_eq n next hm
    _ = (s.endEvent.takeFirst i m rest).drain (s.endEvent.takeFirst i m rest).awaitingCount :=
      drain_of_enough (by omega)

/-- Settles O26: one taking is one turn of `State.drain`, and the turns left are those of an event of its own. -/
theorem awaitingMessagesTaken : Obligations.AwaitingMessagesTaken := by
  refine ⟨fun s h => finish_of_taken s h, fun s i m rest rxdLow hseg hm hother hkind => ?_⟩
  rw [finish_taken hseg hm hother, take_rxdLow hkind _ rxdLow]

/-! ### HELLO, GOODBYE and WAKE (R128–R130, R132, R149) -/

section Sessions

variable {tag : Byte}

/-- The HELLO reply's payload (R149, R193). -/
theorem identity_eq (s : State) : s.identity =
    [0x00, 0x04, 0x16, 0x01, 0x10, 0x00, 0x02, 0x00, 0x10, 0x04] ++ be16 s.scrub.retired.length := rfl

/-- A HELLO that passes intake, on a link that takes messages and is not DORMANT. -/
theorem Stable_hello (h : s.Stable) (hr : s.receiving i = true) (hd : (s.link i).state ≠ .dormant)
    (hp : (s.link i).generalOccupied < 8) (hseg : (s.link i).segment = none) (htag : tag ≠ 0)
    (hfresh : ∀ e ∈ (s.link i).deferred, e.tag ≠ tag) (version : Byte) :
    exec (.hello i tag [version]) s = .next (serveHello i ⟨0x01, tag, [version]⟩ version false (s.heard i)).finish := by
  rw [exec_message_handOver (m := ⟨0x01, tag, [version]⟩) rfl hr, Stable_handOver h hd hp hseg]
  have taken := take_ok (s.heard i) i .hello tag [version] false rfl htag (by simpa using hfresh) (.inr rfl) (.inl rfl)
  exact congrArg (fun t => Host.Outcome.next t.finish) taken

/-- A version other than 1 is refused, whatever the link's state (R129). -/
theorem serveHello_version {version : Byte} (hv : version ≠ 1) (htag : tag ≠ 0) (b : Bool) :
    serveHello i ⟨0x01, tag, [version]⟩ version b s =
      s.enqueue i { kind := 0x7E, tag := tag, payload := [0x01, 0x16], place := .general } := by
  unfold serveHello State.reject
  rw [if_pos hv, if_neg htag]
  rfl

/-- Version 1 on a DOWN link (R128). -/
theorem serveHello_down (hdown : (s.link i).state = .down) (b : Bool) : serveHello i ⟨0x01, tag, [1]⟩ 1 b s =
    (s.onLink i fun l => { l with state := .up }).answered i 0x01 tag s.identity := by
  unfold serveHello
  rw [if_neg (not_not_intro rfl), if_pos hdown]
  rfl

/-- Version 1 on a link that is not DOWN makes a link reset first (R128, R134). -/
theorem serveHello_resets (hdown : (s.link i).state ≠ .down) (b : Bool) : serveHello i ⟨0x01, tag, [1]⟩ 1 b s =
    ((s.unlinked i (resetReceiver b)).onLink i fun l => { l with state := .up }).answered i 0x01 tag s.identity := by
  have identity : (s.unlinked i (resetReceiver b)).identity = s.identity := by
    rw [identity_eq, identity_eq, State.unlinked, setLink_scrub]
  unfold serveHello
  rw [if_neg (not_not_intro rfl), if_neg hdown, linkReset_eq, ← identity]
  rfl

/-- A link reset presents no access (R134). -/
theorem store_unlinked (h : s.arbiter.current.isSome = true ∨ s.arbiter.waiting = []) (rx : Receiver) :
    (s.unlinked i rx).arbiter.current.isSome = true ∨ (s.unlinked i rx).arbiter.waiting = [] := by
  unfold State.unlinked
  rw [setLink_arbiter]
  exact h.imp_right fun hw => by simp [hw]

/-- A link reset leaves no message to take (R134). -/
theorem canTake_unlinked {j : LinkId} (h : (s.link j).canTake = false) (rx : Receiver) :
    ((s.unlinked i rx).link j).canTake = false := by
  unfold State.unlinked
  by_cases hj : j = i
  · subst hj
    rw [link_setLink_same]
    rfl
  · rw [link_setLink_other _ _ _ _ hj]
    cases j <;> exact h

/-- The event of a link reset and a reply ends with the transmitters. -/
theorem unlinked_answered_finish (h : s.Stable) (rx : Receiver) (p : List Byte) :
    (((s.unlinked i rx).onLink i fun l => { l with state := .up }).answered i 0x01 tag p).finish =
      (((s.unlinked i rx).onLink i fun l => { l with state := .up }).answered i 0x01 tag p).settle := by
  refine finish_eq_settle _ ?_ fun j => ?_
  · unfold State.answered
    rw [enqueue_arbiter, onLink_arbiter]
    exact store_unlinked h.store rx
  · exact (canTake_onLink _ i j _ rfl rfl).trans
      ((canTake_onLink _ i j _ rfl rfl).trans (canTake_unlinked (h.taken j) rx))

/-- Settles O27: each request is its `serve…` definition in its own event. -/
theorem sessionRequests : Obligations.SessionRequests := by
  refine ⟨fun s i tag version h hr hd hp hseg htag hfresh => ⟨?down, ?refused⟩,
    fun s i tag h => ?up, fun s i tag h => ⟨?goodbye, ?wake⟩⟩
  case down =>
    rintro rfl hdown
    rw [Stable_hello h hr hd hp hseg htag hfresh, serveHello_down (by simpa using hdown), identity_eq, heard_scrub]
    refine congrArg _ (Stable_finish h ?_ fun j => ?_)
    · exact (onLink_arbiter ..).trans ((onLink_arbiter ..).trans (heard_arbiter ..))
    · exact (canTake_onLink _ i j _ rfl rfl).trans ((canTake_onLink _ i j _ rfl rfl).trans (canTake_heard ..))
  case refused =>
    intro hv
    rw [Stable_hello h hr hd hp hseg htag hfresh, serveHello_version hv htag, Stable_enqueue_finish h]
  case up =>
    have notDown : ((s.heard i).link i).state ≠ .down := by simp [h.up]
    rw [Stable_hello h.stable h.receiving (by simp [h.up]) h.places h.free h.tagged h.fresh, serveHello_resets notDown,
      identity_eq, heard_scrub, heard_eq, unlinked_onLink _ _ _ _ rfl, unlinked_answered_finish h.stable]
  case goodbye => exact congrArg _ ((Ready_immediate h .goodbye [] rfl rfl).trans (Ready_reply h .goodbye _))
  case wake => exact congrArg _ ((Ready_immediate h .wake [] rfl rfl).trans (Ready_reply h .wake _))

end Sessions

end Sys2Proof.Machine
end

section
/-! THEOREMS. CONFIG queries and refusals (R145, R193), LINK_STATUS and PART_STATUS (R147, R148, R192, Tables 10-5 and
10-6). -/

namespace Sys2Proof.Machine

variable {s : State} {i : LinkId} {tag : Byte}

/-! ### CONFIG (R145) -/

/-- The settings of Table 7-7 are those that have a value in force. -/
theorem inForce_eq (s : State) (i : LinkId) (code : Nat) :
    s.inForce i code = (configItem? code).map (s.configValue i) := by
  unfold State.inForce
  split
  case h_7 h1 h2 h3 h4 h5 h6 =>
    have unnamed : configItem? code = none := by
      unfold configItem?
      simp [ConfigItem.code, Ne.symm h1, Ne.symm h2, Ne.symm h3, Ne.symm h4, Ne.symm h5, Ne.symm h6]
    rw [unnamed]
    rfl
  all_goals rfl

/-- An item's range is that of its code (Table 7-7). -/
theorem inRange_iff (c : ConfigItem) (v : Nat) : c.inRange v = true ↔ settingRange c.code v := by
  cases c <;> simp [ConfigItem.inRange, ConfigItem.code, settingRange]

theorem configItem?_some {code : Nat} {c : ConfigItem} (h : configItem? code = some c) : c.code = code := by
  unfold configItem? at h
  simpa using List.find?_some h

theorem msb_iff (item : Byte) : item.msb = true ↔ 128 ≤ item.toNat := by
  rw [BitVec.msb_eq_decide, decide_eq_true_eq]

theorem serveConfig_unknown {item : Byte} (v : Nat) (h : configItem? (item.toNat % 128) = none) :
    serveConfig i tag item v s = s.reply i .config tag [0x17, item, 0, 0] := by
  unfold serveConfig
  rw [h]
  rfl

/-- A query of a setting (R145): the value in force, and RANGE for a value that is not 0. -/
theorem serveConfig_query {item : Byte} {c : ConfigItem} (v : Nat) (h : configItem? (item.toNat % 128) = some c)
    (hq : 128 ≤ item.toNat) : serveConfig i tag item v s =
      s.reply i .config tag ([if v = 0 then 0x00 else 0x17, item] ++ be16 (s.configValue i c)) := by
  unfold serveConfig
  rw [h]
  dsimp only
  rw [if_pos ((msb_iff item).2 hq)]
  split <;> rfl

/-- A value out of its setting's range (R145). -/
theorem serveConfig_outOfRange {item : Byte} {c : ConfigItem} {v : Nat} (h : configItem? (item.toNat % 128) = some c)
    (hq : ¬128 ≤ item.toNat) (hv : ¬settingRange item.toNat v) : serveConfig i tag item v s =
      s.reply i .config tag ([0x17, item] ++ be16 (s.configValue i c)) := by
  have code : c.code = item.toNat := (configItem?_some h).trans (Nat.mod_eq_of_lt (Nat.not_le.1 hq))
  unfold serveConfig
  rw [h]
  dsimp only
  rw [if_neg (mt (msb_iff item).1 hq), if_neg (mt (inRange_iff c v).1 (code ▸ hv))]
  rfl

@[simp] theorem configValue_heard (c : ConfigItem) : (s.heard i).configValue i c = s.configValue i c := by
  cases c <;> simp [State.configValue]

/-- A CONFIG of three bytes, by any row that carries it. -/
theorem exec_config {item high low : Byte} {c : Instr} (h : s.Ready i tag)
    (hc : messageOf c = some (i, ⟨0x04, tag, [item, high, low]⟩)) :
    exec c s = .next (serveConfig i tag item (nat16 high low) (s.heard i)).finish :=
  (exec_message hc s).trans (congrArg _ (Ready_immediate h .config [item, high, low] rfl rfl))

/-- Settles O29: one equation of `serveConfig` for each refusal and for a query, each a reply alone. -/
theorem configQueriesAndRefusals : Obligations.ConfigQueriesAndRefusals := by
  intro s i tag item high low c h hc
  have answer : ∀ payload,
      serveConfig i tag item (nat16 high low) (s.heard i) = (s.heard i).reply i .config tag payload →
      exec c s = .next ((s.heard i).answered i 0x04 tag payload).settle := fun payload hp => by
    rw [exec_config h hc, hp]
    exact congrArg _ (Ready_reply h .config payload)
  dsimp only
  rw [inForce_eq]
  cases hitem : configItem? (item.toNat % 128) with
  | none => exact answer _ (serveConfig_unknown _ hitem)
  | some setting =>
    rw [Option.map_some, ← configValue_heard]
    dsimp only
    split_ifs with hq hv
    · exact answer _ ((serveConfig_query _ hitem hq).trans (by rw [if_pos (show nat16 high low = 0 from hv)]))
    · exact answer _ ((serveConfig_query _ hitem hq).trans (by rw [if_neg (show ¬nat16 high low = 0 from hv)]))
    · exact fun hv => answer _ (serveConfig_outOfRange hitem hq hv)

/-! ### LINK_STATUS (R147) -/

/-- The set of the classes of some notices has the bit of each class (R190). -/
theorem getLsbD_noticeClasses (notices : List Notice) {c : Nat} (hc : c < 8) :
    (noticeClasses notices).getLsbD c = notices.any fun n => n.classCode = c := by
  have general : ∀ acc : BitVec 8, (notices.foldl (fun acc n => acc ||| BitVec.twoPow 8 n.classCode) acc).getLsbD c =
      (acc.getLsbD c || notices.any fun n => n.classCode = c) := by
    induction notices with
    | nil => simp
    | cons n rest ih =>
      intro acc
      have bit : (BitVec.twoPow 8 n.classCode).getLsbD c = decide (n.classCode = c) := by
        rw [BitVec.getLsbD_twoPow, Bool.eq_iff_iff, Bool.and_eq_true, decide_eq_true_eq, decide_eq_true_eq]
        omega
      rw [List.foldl_cons, ih, BitVec.getLsbD_or, bit, List.any_cons, Bool.or_assoc]
  exact (general 0).trans (by simp)

theorem noticeClasses_eq {notices : List Notice} {classes : Byte}
    (h : ∀ c : Fin 8, classes.getLsbD c.val = notices.any fun n => n.classCode = c.val) :
    noticeClasses notices = classes :=
  BitVec.eq_of_getLsbD_eq fun c hc => (getLsbD_noticeClasses notices hc).trans (h ⟨c, hc⟩).symm

/-- A vector's items, in order. -/
theorem finRange_map_get {α : Type} {n : Nat} (v : Vector α n) : (List.finRange n).map v.get = v.toList := by
  refine List.ext_getElem (by simp) fun k h1 h2 => ?_
  simp [Vector.get_eq_getElem]

/-- A clear flag of 0 or 1 names whether to clear. -/
theorem flag?_eq_some {b : Byte} (h : b.toNat < 2) : flag? b = some (decide (b = 1)) := by
  have zeroOrOne : b = 0 ∨ b = 1 := by
    rw [← BitVec.toNat_inj, ← BitVec.toNat_inj]
    have : (0 : Byte).toNat = 0 ∧ (1 : Byte).toNat = 1 := ⟨rfl, rfl⟩
    omega
  rcases zeroOrOne with rfl | rfl <;> rfl

/-- The report of a link (Table 10-5). -/
def Link.report (l : Link) : List Byte :=
  [Status.ok.code, l.state.code] ++ be16 l.discarded ++
    [u8 l.deferred.length, u8 (l.deferred.countP fun e => !e.answered)] ++ l.slots.toList.map Slot.code ++
    [noticeClasses l.notices, l.noticeMask]

/-- The report of an UP link, field by field. -/
theorem report_up {l : Link} (hu : l.state = .up) {pending : Byte}
    (h : ∀ c : Fin 8, pending.getLsbD c.val = l.notices.any fun n => n.classCode = c.val) : l.report =
      [0x00, 0x01] ++ be16 l.discarded ++
        [BitVec.ofNat 8 l.deferred.length, BitVec.ofNat 8 (l.deferred.countP fun e => e.answered = false)] ++
        ((List.finRange 4).map fun k => (l.slots.get k).code) ++ [pending, l.noticeMask] := by
  have slots : l.slots.toList.map Slot.code = (List.finRange 4).map fun k => (l.slots.get k).code := by
    rw [← finRange_map_get, List.map_map]
    rfl
  have waiting : (l.deferred.countP fun e => !e.answered) = l.deferred.countP fun e => e.answered = false :=
    List.countP_congr fun e _ => by simp
  unfold Link.report
  rw [hu, noticeClasses_eq h, slots, waiting]
  rfl

theorem serveLinkStatus_report {clear : Byte} (h : clear.toNat < 2) : serveLinkStatus i tag clear s =
    (s.onLink i fun l => { l with discarded := if clear = 1 then 0 else l.discarded }).reply i .linkStatus tag
      (s.link i).report := by
  unfold serveLinkStatus
  rw [flag?_eq_some h]
  dsimp only
  split_ifs with hw hc hc
  · rfl
  · exact absurd (of_decide_eq_true hw) hc
  · exact absurd (decide_eq_true hc) hw
  · rw [onLink_id s i (fun l => { l with discarded := l.discarded }) rfl]
    rfl

theorem serveLinkStatus_range {clear : Byte} (h : 2 ≤ clear.toNat) :
    serveLinkStatus i tag clear s = s.reply i .linkStatus tag (0x17 :: List.replicate 11 0) := by
  unfold serveLinkStatus
  rw [flag?_eq_none h]
  rfl

theorem exec_linkStatus (h : s.Ready i tag) (clear : Byte) :
    exec (.linkStatus i tag [clear]) s = .next (serveLinkStatus i tag clear (s.heard i)).finish :=
  congrArg _ (Ready_immediate h .linkStatus [clear] rfl rfl)

/-! ### PART_STATUS (R148) -/

theorem heldCount_eq (s : State) : s.heldCount = (List.finRange 4096).countP fun f => (s.frame f).state.isHeld :=
  (finRange_countP_get s.frames fun r => r.state.isHeld).symm

theorem liveSpaces_eq (s : State) : s.liveSpaces = (List.finRange 16).countP fun sp => (s.space sp).isSome :=
  (finRange_countP_get s.spaces Option.isSome).symm

theorem supply_code (st : SupplyState) : st.code = if st = .low then 1 else 0 := by cases st <;> rfl

theorem exec_partStatus (h : s.Ready i tag) :
    exec (.partStatus i tag []) s = .next (servePartStatus i tag (s.heard i)).finish :=
  congrArg _ (Ready_immediate h .partStatus [] rfl rfl)

/-- Settles O30: the two reports, read field by field. -/
theorem statusReports : Obligations.StatusReports := by
  refine ⟨fun s i tag clear pending h hpending => ⟨fun hc => ?_, fun hc => ?_⟩, fun s i tag h => ?_⟩
  · rw [exec_linkStatus h, serveLinkStatus_report hc,
      report_up (l := (s.heard i).link i) (by simpa using h.up) (by simpa using hpending)]
    simp only [link_heard_same]
    refine congrArg _ (Stable_finish h.stable ?_ fun j => ?_)
    · rw [reply_arbiter, onLink_arbiter, heard_arbiter]
    · exact (canTake_reply ..).trans ((canTake_onLink _ i j _ rfl rfl).trans (canTake_heard ..))
  · rw [exec_linkStatus h, serveLinkStatus_range hc]
    exact congrArg _ (Ready_reply h .linkStatus _)
  · rw [exec_partStatus h]
    unfold servePartStatus
    refine congrArg _ ((Ready_reply h .partStatus _).trans ?_)
    rw [wordBytes_eq, supply_code, heldCount_eq, liveSpaces_eq]
    simp only [State.freeCount, frame_heard, space_heard, heard_clearQueue, heard_freeQueue, heard_jobs,
      heard_scrub, heard_supply]
    rfl

end Sys2Proof.Machine
end

section
/-! THEOREMS. The expiry of a slot's idle timer (R77, R152, R172), and SEG taken: refused, answered at once, or its access
presented (R155–R159, R163, R166). -/

namespace Sys2Proof.Machine

variable {s x : State} {i : LinkId} {tag k toggle : Byte} {body : List Byte} {slot : SlotId} {t : Transfer}

/-! ### The idle timer's expiry (R172) -/

theorem expireSlot_running {k : SlotRef} (ht : s.slot k = .active t) (hrunning : t.timer = .running) :
    s.expireSlot k = ((s.leaveWaiters k).setSlot k (.idle (some { status := .expired, position := t.position }))).raiseOn
      k.1 (.slotExpired (slotSet k.2)) := by
  unfold State.expireSlot
  rw [ht]
  exact if_pos hrunning

/-- Settles O22: the slot closed and its notice raised present no access, so the event ends with the transmitters. -/
theorem slotExpiryCloses : Obligations.SlotExpiryCloses := by
  intro s i k t hstable ht hrunning
  change Host.Outcome.next (s.expireSlot (i, k)).finish = _
  rw [expireSlot_running ht hrunning]
  refine congrArg _ (Stable_finish hstable ?_ fun j => ?_)
  · exact (onLink_arbiter ..).trans (setSlot_arbiter ..)
  · rw [canTake_raiseOn, canTake_setSlot, canTake_leaveWaiters]

/-! ### SEG by its parameters (R155) -/

theorem exec_seg (h : s.Ready i tag) (k toggle : Byte) (hpos : 1 ≤ body.length) (hmax : body.length ≤ 64) :
    exec (.seg i tag (k :: toggle :: body)) s = .next (serveSeg i tag k toggle body (s.heard i)).finish := by
  have length : RequestKind.seg.lengthOk (k :: toggle :: body).length = true := by
    simp only [RequestKind.lengthOk, List.length_cons, decide_eq_true_eq]
    omega
  exact congrArg _ (Ready_immediate h .seg _ length rfl)

/-- The last check of R155: what follows the slot and toggle is a write's bytes, or one count of 1–64 asked of a read. -/
def Transfer.TakesBody (t : Transfer) (body : List Byte) : Prop :=
  t.direction = .write ∨ ∃ n : Byte, body = [n] ∧ 1 ≤ n.toNat ∧ n.toNat ≤ 64

theorem serveSeg_noSlot (hk : 4 ≤ k.toNat) :
    serveSeg i tag k toggle body s = s.reply i .seg tag [0x17, k, 0, 0, 0, 0] := by
  unfold serveSeg
  rw [slot?_eq_none hk]
  rfl

theorem serveSeg_idle (hk : k.toNat = slot.val) {last : Option LastOutcome} (ht : s.slot (i, slot) = .idle last) :
    serveSeg i tag k toggle body s =
      s.reply i .seg tag [if toggle.toNat < 2 then 0x41 else 0x17, k, 0, 0, 0, 0] := by
  unfold serveSeg
  rw [slot?_eq_some hk]
  dsimp only
  rw [ht]
  by_cases htoggle : toggle.toNat < 2
  · rw [flag?_eq_some htoggle, if_pos htoggle]
    rfl
  · rw [flag?_eq_none (by omega), if_neg htoggle]
    rfl

theorem serveSeg_write (hk : k.toNat = slot.val) (ht : s.slot (i, slot) = .active t) (htoggle : toggle.toNat < 2)
    (hd : t.direction = .write) : serveSeg i tag k toggle body s =
      s.takeSegment (i, slot) tag t (decide (toggle = 1)) body body.length := by
  unfold serveSeg
  rw [slot?_eq_some hk]
  dsimp only
  rw [ht]
  dsimp only
  rw [flag?_eq_some htoggle, hd]

theorem serveSeg_read (hk : k.toNat = slot.val) (ht : s.slot (i, slot) = .active t) (htoggle : toggle.toNat < 2)
    (hd : t.direction = .read) {n : Byte} (hpos : 1 ≤ n.toNat) (hmax : n.toNat ≤ 64) : serveSeg i tag k toggle [n] s =
      s.takeSegment (i, slot) tag t (decide (toggle = 1)) [] n.toNat := by
  unfold serveSeg
  rw [slot?_eq_some hk]
  dsimp only
  rw [ht]
  dsimp only
  rw [flag?_eq_some htoggle, hd]
  exact if_pos ⟨hpos, hmax⟩

/-- A SEG whose toggle and count are in range goes on to the slot. -/
theorem serveSeg_taken (hk : k.toNat = slot.val) (ht : s.slot (i, slot) = .active t) (htoggle : toggle.toNat < 2)
    (hbody : t.TakesBody body) : ∃ bytes count, (t.direction = .write → count = body.length) ∧
      serveSeg i tag k toggle body s = s.takeSegment (i, slot) tag t (decide (toggle = 1)) bytes count := by
  cases hd : t.direction with
  | write => exact ⟨body, body.length, fun _ => rfl, serveSeg_write hk ht htoggle hd⟩
  | read =>
    obtain hwrite | ⟨n, rfl, hpos, hmax⟩ := hbody
    · rw [hd] at hwrite; cases hwrite
    · exact ⟨[], n.toNat, nofun, serveSeg_read hk ht htoggle hd hpos hmax⟩

/-- A SEG refused on its toggle or its count leaves the slot as it is (R155). -/
theorem serveSeg_refused (hk : k.toNat = slot.val) (ht : s.slot (i, slot) = .active t)
    (hbad : ¬(toggle.toNat < 2 ∧ t.TakesBody body)) : serveSeg i tag k toggle body s =
      s.reply i .seg tag ([0x17, k, if t.toggle then 1 else 0] ++ be24 t.position) := by
  have payload : segPayload .range k t.toggle t.position [] = [0x17, k, if t.toggle then 1 else 0] ++ be24 t.position :=
    List.append_nil _
  unfold serveSeg
  rw [slot?_eq_some hk]
  dsimp only
  rw [ht]
  dsimp only
  rw [payload]
  by_cases htoggle : toggle.toNat < 2
  · have hbody : ¬t.TakesBody body := fun hb => hbad ⟨htoggle, hb⟩
    rw [flag?_eq_some htoggle]
    cases hd : t.direction with
    | write => exact absurd (.inl hd) hbody
    | read =>
      match body with
      | [] => rfl
      | [n] => exact if_neg fun hn => hbody (.inr ⟨n, rfl, hn⟩)
      | _ :: _ :: _ => rfl
  · rw [flag?_eq_none (by omega)]

/-! ### SEG by the slot's phase and toggle (R156–R159, R163, R166) -/

/-- A slot whose SEG is in processing: its idle timer stopped, and the link's segment fixed (R159). -/
def State.segmentBegun (s : State) (k : SlotRef) (t : Transfer) (g : Segment) : State :=
  (s.setSlot k (.active { t with timer := .stopped })).onLink k.1 fun l => { l with segment := some g }

section Slot

variable {k : SlotRef} {b : Bool} {count : Nat}

theorem takeSegment_halted {cause : HaltCause} (hp : t.phase = .halted cause) :
    s.takeSegment k tag t b body count = s.segReply k tag (.halted cause) [] := by
  unfold State.takeSegment
  rw [hp]

/-- A slot that is not HALTED looks at the toggle first (R157), then at its phase (R158) and what remains (R163). -/
theorem takeSegment_open (hp : ∀ cause, t.phase ≠ .halted cause) : s.takeSegment k tag t b body count =
    if b ≠ t.toggle then
      match t.last with
      | some l => s.segReply k tag .ok l.data
      | none => s.haltReply k tag .sequence
    else if t.phase = .final then s.segReply k tag .pastEnd []
    else if t.direction = .write ∧ t.length - t.position < count then s.haltReply k tag .overrun
    else
      (s.segmentBegun k t { tag, slot := k.2, toggle := b, bytes := body,
                            count := min count (t.length - t.position) }).present (.dataPath k.1) := by
  unfold State.takeSegment
  split
  · next cause hphase => exact absurd hphase (hp cause)
  · rfl

theorem takeSegment_retransmitted (hp : ∀ cause, t.phase ≠ .halted cause) (hb : b ≠ t.toggle) {l : LastSegment}
    (hl : t.last = some l) : s.takeSegment k tag t b body count = s.segReply k tag .ok l.data := by
  rw [takeSegment_open hp, if_pos hb, hl]

theorem takeSegment_sequence (hp : ∀ cause, t.phase ≠ .halted cause) (hb : b ≠ t.toggle) (hl : t.last = none) :
    s.takeSegment k tag t b body count = s.haltReply k tag .sequence := by
  rw [takeSegment_open hp, if_pos hb, hl]

theorem takeSegment_pastEnd (hp : t.phase = .final) (hb : b = t.toggle) :
    s.takeSegment k tag t b body count = s.segReply k tag .pastEnd [] := by
  rw [takeSegment_open (by rw [hp]; nofun), if_neg (not_not_intro hb), if_pos hp]

theorem takeSegment_overrun (hp : t.phase = .data) (hb : b = t.toggle) (hd : t.direction = .write)
    (hlong : t.length - t.position < count) : s.takeSegment k tag t b body count = s.haltReply k tag .overrun := by
  rw [takeSegment_open (by rw [hp]; nofun), if_neg (not_not_intro hb), if_neg (by rw [hp]; nofun), if_pos ⟨hd, hlong⟩]

theorem takeSegment_presented (hp : t.phase = .data) (hb : b = t.toggle)
    (hfits : ¬(t.direction = .write ∧ t.length - t.position < count)) : s.takeSegment k tag t b body count =
      (s.segmentBegun k t { tag, slot := k.2, toggle := b, bytes := body,
                            count := min count (t.length - t.position) }).present (.dataPath k.1) := by
  rw [takeSegment_open (by rw [hp]; nofun), if_neg (not_not_intro hb), if_neg (by rw [hp]; nofun), if_neg hfits]

end Slot

/-- A SEG answered for an open slot presents no access, so its event ends with the transmitters. -/
theorem Ready_segAnswers (h : s.Ready i tag) {c : Instr} (hc : exec c s = .next x.finish) {code : Byte} {data : List Byte}
    (hx : x = (s.heard i).segAnswered i tag slot t code data) :
    exec c s = .next ((s.heard i).segAnswered i tag slot t code data).settle := by
  subst hx
  refine hc.trans (congrArg _ (Stable_finish h.stable ?_ fun j => ?_))
  · exact (reply_arbiter _ i .seg ..).trans ((setSlot_arbiter ..).trans (heard_arbiter ..))
  · exact (canTake_reply _ i j .seg ..).trans ((canTake_setSlot ..).trans (canTake_heard ..))

/-- Settles O41: the parameters, then the slot's phase, the toggle against the last segment, and a write's length. -/
theorem segAnsweredAtOnce : Obligations.SegAnsweredAtOnce := by
  intro s i tag k toggle body h hpos hmax
  have run := exec_seg h k toggle hpos hmax
  refine ⟨fun hk => Ready_answers h .seg run (serveSeg_noSlot hk), fun slot hk => ⟨fun last hidle => ?_, fun t ht => ?_⟩⟩
  · exact Ready_answers h .seg run (serveSeg_idle hk ((slot_heard ..).trans hidle))
  have active : (s.heard i).slot (i, slot) = .active t := (slot_heard ..).trans ht
  refine ⟨fun hbad => Ready_answers h .seg run (serveSeg_refused hk active hbad), fun htoggle hbody => ?_⟩
  obtain ⟨bytes, count, hcount, taken⟩ := serveSeg_taken (tag := tag) hk active htoggle hbody
  rw [taken] at run
  refine ⟨fun cause hp => ?_, fun hp hb => ⟨fun l hl => ?_, fun hl => ?_⟩, fun hp hb => ?_, fun hp hb hd hlong => ?_⟩
  · exact Ready_segAnswers h run ((takeSegment_halted hp).trans (segReply_active active ..))
  · exact Ready_segAnswers h run ((takeSegment_retransmitted hp hb hl).trans (segReply_active active ..))
  · exact Ready_segAnswers h run ((takeSegment_sequence hp hb hl).trans (haltReply_active active ..))
  · exact Ready_segAnswers h run ((takeSegment_pastEnd hp hb).trans (segReply_active active ..))
  · rw [← hcount hd] at hlong
    exact Ready_segAnswers h run ((takeSegment_overrun hp hb hd hlong).trans (haltReply_active active ..))

/-! ### An access granted on an idle store (R10) -/

theorem arbitrate_of_granted (h : s.Granted) (n : Nat) : s.arbitrate n = s :=
  h.elim (arbitrate_busy s n) (arbitrate_none s n)

/-- Once the arbiter is at rest, it has no further grant to make. -/
theorem arbitrate_succ (n : Nat) (h : (s.arbitrate n).Granted) : s.arbitrate (n + 1) = s.arbitrate n := by
  induction n generalizing s with
  | zero => exact arbitrate_of_granted h 1
  | succ n ih =>
    rw [State.arbitrate] at h ⊢
    rw [State.arbitrate]
    split
    · rfl
    · next hidle =>
      rw [if_neg hidle] at h
      cases hn : s.arbiter.next with
      | none => rfl
      | some c =>
        rw [hn] at h
        exact ih h

/-- The first grant of an event's end, made before it. -/
theorem endEvent_of_next {c : Client} (hidle : s.arbiter.current = none) (hn : s.arbiter.next = some c) :
    s.endEvent = (s.grant c).endEvent := by
  have first : s.arbitrate 6 = (s.grant c).arbitrate 5 := by
    rw [State.arbitrate, if_neg (by simp [hidle]), hn]
  have rest : ((s.grant c).arbitrate 5).Granted := by
    rcases grantsLeft_grant s c (next_mem hn) with busy | fewer
    · rw [arbitrate_busy _ _ busy]
      exact .inl busy
    · exact arbitrate_granted 5 _ (by have := grantsLeft_le s; omega)
  unfold State.endEvent
  rw [first, arbitrate_succ 5 rest]

/-- The only client that waits is next. -/
theorem next_of_only {a : Arbiter} {c : Client} (h : a.waiting = [c]) : a.next = some c := by
  cases hn : a.next with
  | none => rw [next_eq_none hn] at h; cases h
  | some d =>
    have hd := next_mem hn
    rw [h, List.mem_singleton] at hd
    rw [hd]

/-- A segment's access presented on an idle store where nobody waits is granted first (R10). -/
theorem finish_presented (hidle : s.arbiter.current = none) (hnobody : s.arbiter.waiting = []) (i : LinkId) :
    (s.present (.dataPath i)).finish = (State.grantSegment
      { s with arbiter := { current := none, waiting := [], lastServed := .dataPath i } } i).finish := by
  have waits : (s.present (.dataPath i)).arbiter.waiting = [.dataPath i] := by
    simp [State.present, hnobody]
  have served : (s.present (.dataPath i)).serving (.dataPath i) =
      { s with arbiter := { current := none, waiting := [], lastServed := .dataPath i } } := by
    simp [State.serving, State.present, hnobody, hidle]
  unfold State.finish
  rw [endEvent_of_next ((present_current ..).trans hidle) (next_of_only waits), grant_eq, served]
  rfl

/-! ### SEG that presents its access (R159, R163, R166) -/

theorem segmentBegun_arbiter (s : State) (k : SlotRef) (t : Transfer) (g : Segment) :
    (s.segmentBegun k t g).arbiter = s.arbiter :=
  (onLink_arbiter ..).trans (setSlot_arbiter ..)

/-- No message is taken from a link whose SEG is in processing, and the other link is as it was. -/
theorem canTake_segmentBegun (h : ∀ j, (s.link j).canTake = false) (k : SlotRef) (t : Transfer) (g : Segment)
    (j : LinkId) : ((s.segmentBegun k t g).link j).canTake = false := by
  unfold State.segmentBegun
  rw [link_onLink]
  split
  · rfl
  · exact (canTake_setSlot ..).trans (h j)

/-- A new SEG that fits the slot begins with its byte count fixed, and presents its access (R159, R163, R166). -/
theorem serveSeg_presented {g : Segment} (hk : k.toNat = slot.val) (ht : s.slot (i, slot) = .active t)
    (htoggle : toggle.toNat < 2) (hp : t.phase = .data) (hb : decide (toggle = 1) = t.toggle)
    (hg : (t.direction = .write ∧ body.length ≤ t.length - t.position ∧
        g = { tag := tag, slot := slot, toggle := t.toggle, bytes := body, count := body.length }) ∨
      ∃ n : Byte, t.direction = .read ∧ body = [n] ∧ 1 ≤ n.toNat ∧ n.toNat ≤ 64 ∧
        g = { tag := tag, slot := slot, toggle := t.toggle, bytes := [], count := min n.toNat (t.length - t.position) }) :
    serveSeg i tag k toggle body s = (s.segmentBegun (i, slot) t g).present (.dataPath i) := by
  rcases hg with ⟨hd, hfits, rfl⟩ | ⟨n, hd, rfl, hpos, hmax, rfl⟩
  · rw [serveSeg_write hk ht htoggle hd, takeSegment_presented hp hb (by omega), min_eq_left hfits, hb]
  · rw [serveSeg_read hk ht htoggle hd hpos hmax, takeSegment_presented hp hb (by rw [hd]; nofun), hb]

/-- Settles O42: the SEG begins and presents its access, which a busy store leaves waiting and an idle one grants first. -/
theorem segPresentsAccess : Obligations.SegPresentsAccess := by
  intro s i tag k toggle body slot t g h hpos hmax hk htoggle ht hp hb hg hnew taken
  have hbegun : (s.heard i).segmentBegun (i, slot) t g = taken := rfl
  have arbiter : taken.arbiter = s.arbiter := (segmentBegun_arbiter ..).trans (heard_arbiter ..)
  have presented : taken.present (.dataPath i) =
      { taken with arbiter := { s.arbiter with waiting := s.arbiter.waiting ++ [.dataPath i] } } := by
    unfold State.present
    rw [arbiter, if_neg hnew]
  have run := exec_seg h k toggle hpos hmax
  rw [serveSeg_presented hk ((slot_heard ..).trans ht) htoggle hp hb hg, hbegun] at run
  refine ⟨fun hbusy => ?_, fun hidle => ?_⟩
  · have still : (taken.present (.dataPath i)).finish = (taken.present (.dataPath i)).settle := by
      refine finish_eq_settle _ (.inl ?_) fun j => ?_
      · rw [present_current, arbiter]
        exact hbusy
      · rw [link_present]
        exact canTake_segmentBegun (fun j => (canTake_heard ..).trans (h.stable.taken j)) ..
    rw [run, still, presented]
  · have nobody : s.arbiter.waiting = [] := h.stable.store.resolve_left (by rw [hidle]; nofun)
    rw [run, finish_presented (arbiter ▸ hidle) (arbiter ▸ nobody)]

end Sys2Proof.Machine
end

section
/-! THEOREMS. Raises: ignored, appended, or merged by Table 9-3 (R178, R180, R181), and SLOT_READY for the waiters of each
link (R90). -/

namespace Sys2Proof.Machine

variable {s : State} {i : LinkId} {n p : Notice}

/-! ### A notice set after a raise (R180) -/

/-- A raise whose class is not pending is appended. -/
theorem raiseInto_append {set : List Notice} (h : ∀ p ∈ set, p.classCode ≠ n.classCode) :
    raiseInto set n = set ++ [n] :=
  if_neg (by simpa using h)

/-- A merge into a set that has no notice of the class leaves it. -/
theorem map_merge_of_ne {set : List Notice} (h : ∀ q ∈ set, q.classCode ≠ n.classCode) :
    (set.map fun q => if q.classCode = n.classCode then q.merge n else q) = set :=
  (List.map_congr_left fun q hq => if_neg (h q hq)).trans (List.map_id' set)

/-- A raise whose class is pending is merged into that notice, which keeps its place. -/
theorem raiseInto_merge {before after : List Notice} (hp : p.classCode = n.classCode)
    (h : ∀ q ∈ before ++ after, q.classCode ≠ n.classCode) :
    raiseInto (before ++ p :: after) n = before ++ (p.merge n :: after) := by
  have pending : (before ++ p :: after).any (fun q => q.classCode = n.classCode) = true :=
    List.any_eq_true.2 ⟨p, by simp, by simpa using hp⟩
  rw [raiseInto, if_pos pending, List.map_append, List.map_cons, if_pos hp,
    map_merge_of_ne fun q hq => h q (List.mem_append_left _ hq),
    map_merge_of_ne fun q hq => h q (List.mem_append_right _ hq)]

/-! ### A raise on one link, by its state (R180) -/

theorem raiseOn_down (h : (s.link i).state = .down) (n : Notice) : s.raiseOn i n = s :=
  onLink_id s i _ (if_pos h)

theorem raiseOn_of_not_down (h : (s.link i).state ≠ .down) (n : Notice) :
    s.raiseOn i n = s.onLink i fun l => { l with notices := raiseInto (s.link i).notices n } :=
  onLink_congr s i _ _ (if_neg h)

/-! ### Table 9-3 -/

/-- The DATA_LOST count of a merge rises by one, holding at 255 (R181). -/
theorem merge_dataLost (f g : FrameId) (a b : BitVec 16) (k k' : Nat) :
    (Notice.dataLost f a k).merge (.dataLost g b k') = .dataLost g (a ||| b) (if k < 255 then k + 1 else 255) := by
  have count : min (k + 1) 255 = if k < 255 then k + 1 else 255 := by split <;> omega
  rw [← count]
  rfl

/-! ### SLOT_READY (R90) -/

/-- The set of the slots of one link that stand in a list of waiters. -/
def waiterSlots (ws : List SlotRef) (i : LinkId) : BitVec 4 :=
  (ws.filter fun w => w.1 = i).foldl (fun acc w => acc ||| slotSet w.2) 0

theorem getLsbD_slotSet (k : SlotId) (j : Nat) : (slotSet k).getLsbD j = true ↔ k.val = j := by
  have := k.isLt
  simp only [slotSet, BitVec.getLsbD_twoPow, Bool.and_eq_true, decide_eq_true_eq]
  omega

/-- A set of slots made slot by slot has the bit of each (R190). -/
theorem getLsbD_foldl_slotSet (ws : List SlotRef) (acc : BitVec 4) (j : Nat) :
    (ws.foldl (fun acc w => acc ||| slotSet w.2) acc).getLsbD j = true ↔
      acc.getLsbD j = true ∨ ∃ w ∈ ws, w.2.val = j := by
  induction ws generalizing acc with
  | nil => simp
  | cons w rest ih =>
    rw [List.foldl_cons, ih, BitVec.getLsbD_or, Bool.or_eq_true, getLsbD_slotSet]
    simp only [List.mem_cons, exists_eq_or_imp, or_assoc]

theorem getLsbD_waiterSlots (ws : List SlotRef) (i : LinkId) (k : SlotId) :
    (waiterSlots ws i).getLsbD k.val = true ↔ (i, k) ∈ ws := by
  rw [waiterSlots, getLsbD_foldl_slotSet]
  simp only [List.mem_filter, decide_eq_true_eq, Fin.val_inj, Prod.exists]
  constructor
  · rintro (h | ⟨_, _, ⟨hw, rfl⟩, rfl⟩)
    · simp at h
    · exact hw
  · exact fun hw => .inr ⟨i, k, ⟨hw, rfl⟩, rfl⟩

/-- The set of a link's waiting slots is the only one whose bits are they. -/
theorem eq_waiterSlots {ws : List SlotRef} {set : BitVec 4}
    (h : ∀ k : SlotId, set.getLsbD k.val = true ↔ (i, k) ∈ ws) : set = waiterSlots ws i :=
  BitVec.eq_of_getLsbD_eq fun j hj => Bool.eq_iff_iff.2 ((h ⟨j, hj⟩).trans (getLsbD_waiterSlots ws i ⟨j, hj⟩).symm)

/-- A link has no waiter exactly when its set is empty. -/
theorem waiterSlots_eq_zero (ws : List SlotRef) (i : LinkId) :
    waiterSlots ws i = 0 ↔ (ws.filter fun w => w.1 = i) = [] := by
  constructor
  · refine fun h => List.filter_eq_nil_iff.2 ?_
    rintro ⟨_, k⟩ hw hi
    obtain rfl := of_decide_eq_true hi
    have bit := (getLsbD_waiterSlots ws _ k).2 hw
    rw [h] at bit
    simp at bit
  · intro h
    rw [waiterSlots, h]
    rfl

/-- SLOT_READY raised on a link that has a waiter, naming its slots. -/
def State.readyOn (s : State) (ws : List SlotRef) (i : LinkId) : State :=
  if waiterSlots ws i = 0 then s else s.raiseOn i (.slotReady (waiterSlots ws i))

/-- SLOT_READY goes to Link 0, then to Link 1 (R90). -/
theorem slotReady_eq (s : State) (ws : List SlotRef) : s.slotReady ws = (s.readyOn ws .link0).readyOn ws .link1 := by
  refine List.foldl_ext _ (fun x i => x.readyOn ws i) s fun x i _ => ?_
  dsimp only [State.readyOn]
  split
  · next h => rw [if_pos ((waiterSlots_eq_zero ws i).2 h)]
  · next h => exact (if_neg (mt (waiterSlots_eq_zero ws i).1 h)).symm

/-- Settles O56: a raise by the link's state and the notices pending on it, Table 9-3 row by row, and SLOT_READY by the
set of each link's waiting slots. -/
theorem raisesMerge : Obligations.RaisesMerge := by
  refine ⟨fun _ _ n hd => raiseOn_down hd n, fun s i n hu hnew => ?_, fun s i n p before after hu hset hp hother => ?_,
    fun _ _ _ _ => rfl, fun _ _ => ⟨rfl, rfl⟩, fun _ _ => ⟨rfl, rfl⟩, fun _ _ _ _ => rfl,
    fun f g a b k => merge_dataLost f g a b k 1, fun s ws set hset => ?_⟩
  · rw [raiseOn_of_not_down hu, raiseInto_append hnew]
    exact onLink_congr s i _ _ rfl
  · rw [raiseOn_of_not_down hu, hset, raiseInto_merge hp hother]
  · obtain rfl : set = waiterSlots ws := funext fun i => eq_waiterSlots (hset i)
    exact slotReady_eq s ws

end Sys2Proof.Machine
end

section
/-! THEOREMS. The fields of messages: numbers, sets and mark lists (R189, R190), notice payloads (R197, Table 10-13), and
the codes of Tables 10-2 and 10-14. -/

namespace Sys2Proof.Machine

/-! ### Numbers, most significant byte first (R189) -/

theorem toNat_u8 (n : Nat) : (u8 n).toNat = n % 256 := BitVec.toNat_ofNat ..

theorem toNat_be16 {n : Nat} (h : n < 65536) : (u8 (n / 256)).toNat * 256 + (u8 n).toNat = n := by
  simp only [toNat_u8]
  omega

theorem toNat_be24 {n : Nat} (h : n < 16777216) :
    (u8 (n / 65536)).toNat * 65536 + (u8 (n / 256)).toNat * 256 + (u8 n).toNat = n := by
  simp only [toNat_u8]
  omega

/-! ### Sets and mark lists, by bit (R190) -/

theorem getLsbD_spaceSet (sp : SpaceId) (j : Nat) : (spaceSet sp).getLsbD j = true ↔ sp.val = j := by
  have := sp.isLt
  simp only [spaceSet, BitVec.getLsbD_twoPow, Bool.and_eq_true, decide_eq_true_eq]
  omega

/-- Marks set one by one over a list of places leave each place of the list marked as it should be, and each other place
as it was. -/
theorem getLsbD_foldl_mark (mark : Nat → Bool) (places : List Nat) (acc : Byte) {k : Nat} (hk : k < 8) :
    (places.foldl (fun acc j => if mark j then acc ||| BitVec.twoPow 8 j else acc) acc).getLsbD k = true ↔
      acc.getLsbD k = true ∨ k ∈ places ∧ mark k = true := by
  induction places generalizing acc with
  | nil => simp
  | cons j rest ih =>
    have step : (if mark j then acc ||| BitVec.twoPow 8 j else acc).getLsbD k = true ↔
        acc.getLsbD k = true ∨ k = j ∧ mark k = true := by
      by_cases hkj : k = j
      · subst hkj
        cases mark k <;> simp [hk]
      · cases mark j <;> simp [hkj, Ne.symm hkj]
    rw [List.foldl_cons, ih, step, List.mem_cons, or_and_right, or_assoc]

theorem getLsbD_markByte (mark : Nat → Bool) {k : Nat} (hk : k < 8) : (markByte mark).getLsbD k = mark k := by
  rw [Bool.eq_iff_iff, markByte, getLsbD_foldl_mark mark _ _ hk]
  simp [hk]

theorem length_markBytes (marks : List Bool) : (markBytes marks).length = (marks.length + 7) / 8 := by
  simp [markBytes]

/-- A byte of a mark list is made of the eight marks from eight times its place on. -/
theorem eq_markByte_of_getElem? {marks : List Bool} {m : Nat} {b : Byte} (h : (markBytes marks)[m]? = some b) :
    b = markByte fun k => marks.getD (8 * m + k) false := by
  obtain ⟨_, rfl⟩ := List.getElem?_eq_some_iff.1 h
  simp only [markBytes, List.getElem_map, List.getElem_range]

/-! ### Payloads that carry a set of spaces or a count of 16 bits (Table 10-13) -/

theorem payload_spaceChanged (spaces : BitVec 16) :
    (Notice.spaceChanged spaces).payload = [4, spaces.extractLsb' 8 8, spaces.extractLsb' 0 8] :=
  congrArg (List.cons 4) (wordBytes_eq spaces)

theorem payload_scrubPass (count : BitVec 16) :
    (Notice.scrubPass count).payload = [7, count.extractLsb' 8 8, count.extractLsb' 0 8] :=
  congrArg (List.cons 7) (wordBytes_eq count)

theorem payload_dataLost (f : FrameId) (spaces : BitVec 16) (count : Nat) : (Notice.dataLost f spaces count).payload =
    [6] ++ be16 f.val ++ [spaces.extractLsb' 8 8, spaces.extractLsb' 0 8, BitVec.ofNat 8 count] := by
  unfold Notice.payload
  dsimp only
  rw [wordBytes_eq]
  rfl

/-! ### Codes received name the value that has the code (Table 10-2) -/

theorem direction?_eq_some_iff {b : Byte} {d : Direction} : direction? b = some d ↔ b = d.code := by
  constructor
  · unfold direction?
    split_ifs with hread hwrite <;> rintro ⟨⟩
    · exact hread
    · exact hwrite
  · rintro rfl
    cases d <;> rfl

theorem right?_eq_some_iff {b : Byte} {r : Right} : right? b = some r ↔ b = r.code := by
  constructor
  · unfold right?
    split_ifs with hnone hread hwrite <;> rintro ⟨⟩
    · exact hnone
    · exact hread
    · exact hwrite
  · rintro rfl
    exact right?_code r

theorem flag?_eq_some_iff {b : Byte} {on : Bool} : flag? b = some on ↔ b = flag on := by
  constructor
  · unfold flag?
    split_ifs with hno hyes <;> rintro ⟨⟩
    · exact hno
    · exact hyes
  · rintro rfl
    exact flag?_of_bool on

/-! ### A slot's state (Table 10-2) -/

theorem code_active_data {t : Transfer} (h : t.phase = .data) : (Slot.active t).code = 1 := by rw [Slot.code, h]

theorem code_active_final {t : Transfer} (h : t.phase = .final) : (Slot.active t).code = 2 := by rw [Slot.code, h]

theorem code_active_halted {t : Transfer} {cause : HaltCause} (h : t.phase = .halted cause) :
    (Slot.active t).code = 3 := by rw [Slot.code, h]

/-- Settles O57: numbers by their bytes' weights, sets and mark lists bit by bit, each notice class's payload, and the rows
of the code tables, where a code received is read back to the value that has it. -/
theorem fieldEncodings : Obligations.FieldEncodings := by
  unfold Obligations.FieldEncodings
  refine ⟨?be16, ?be24, ?slotSet, ?spaceSet, ?markBytes, ?frameSupply, ?slotSets, ?words, ?frameRetired,
    payload_dataLost, ?linkState, ?idleSlot, ?activeSlot, ?direction, ?owner, ?rightReceived, ?supply, ?right,
    ?frameState, ?errorKind, ?finder, ?haltCause, ?waiter, ?timer, ?flag, ?finalStatus, ?finalHalted⟩
  case be16 => exact fun n h => ⟨_, _, rfl, toNat_be16 h⟩
  case be24 => exact fun n h => ⟨_, _, _, rfl, toNat_be24 h⟩
  case slotSet => exact fun k j _ => (getLsbD_slotSet k j).trans eq_comm
  case spaceSet => exact fun sp j _ => (getLsbD_spaceSet sp j).trans eq_comm
  case markBytes =>
    refine fun marks => ⟨length_markBytes marks, fun m k b hk hb => ?_⟩
    rw [eq_markByte_of_getElem? hb, getLsbD_markByte _ hk]
  case frameSupply => exact fun _ _ => rfl
  case slotSets => exact fun _ => ⟨rfl, rfl⟩
  case words => exact fun a => ⟨payload_spaceChanged a, payload_scrubPass a⟩
  case frameRetired => exact fun _ _ => rfl
  case linkState => rfl
  case idleSlot => exact fun _ => rfl
  case activeSlot => exact fun _ => ⟨code_active_data, code_active_final, fun _ => code_active_halted⟩
  case direction => exact ⟨rfl, fun _ _ => direction?_eq_some_iff⟩
  case owner => rfl
  case rightReceived => exact fun _ _ => right?_eq_some_iff
  case supply => rfl
  case right => rfl
  case frameState => exact fun _ => rfl
  case errorKind => exact fun _ => rfl
  case finder => rfl
  case haltCause => rfl
  case waiter => exact fun _ _ => rfl
  case timer => rfl
  case flag => exact ⟨rfl, fun _ _ => flag?_eq_some_iff⟩
  case finalStatus => rfl
  case finalHalted => exact fun _ => rfl

end Sys2Proof.Machine
end

section
/-! THEOREMS. Every step keeps the Frame Store's canonical form (log 2). -/

namespace Sys2Proof.Machine

variable {s t : State}

/-- The stored words are in canonical form, and no SEG in processing is of more than 64 bytes (R155). -/
structure State.Formed (s : State) : Prop where
  wf : s.memory.wf = true
  small : ∀ i g, (s.link i).segment = some g → g.count ≤ 64

/-- An operation that leaves the stored words keeps their form. -/
theorem State.Formed.of_quiet (h : s.Formed) (hm : t.memory = s.memory) (hl : ∀ i, (s.link i).Quiet (t.link i)) :
    t.Formed := ⟨hm ▸ h.wf, small_of_quiet h.small hl⟩

theorem State.Formed.orderly (h : s.Formed) (ho : s.Orderly t) : t.Formed := h.of_quiet ho.memory ho.links

/-! ### Grants -/

/-- A segment's data move leaves the stored words as its access makes them (R5). -/
theorem moveSegment_memory_read {t : Transfer} (hd : t.direction = .read) (s : State) (k : SlotRef) (g : Segment)
    (parts : List Part) (pages : List BackRef) :
    (s.moveSegment k g t parts pages).memory = (s.memory.segmentRead parts).1 := by
  rw [moveSegment_read hd]
  dsimp only
  split
  · exact (calm_haltReply ..).memory.trans (orderly_commonEffects ..).memory
  · exact (effects_orderly (effects_acceptSegment ..)).memory.trans (orderly_commonEffects ..).memory

/-- A segment's data move leaves the stored words as its access makes them (R6). -/
theorem moveSegment_memory_write {t : Transfer} (hd : t.direction = .write) (s : State) (k : SlotRef) (g : Segment)
    (parts : List Part) (pages : List BackRef) :
    (s.moveSegment k g t parts pages).memory = (s.memory.segmentWrite parts g.bytes).1 := by
  rw [moveSegment_write hd]
  dsimp only
  split
  · next hbad =>
    refine ((calm_haltReply ..).memory.trans (orderly_commonEffects ..).memory).trans ?_
    unfold Memory.segmentWrite
    dsimp only
    rw [if_pos hbad]
  · exact (effects_orderly (effects_acceptSegment ..)).memory.trans (orderly_commonEffects ..).memory

theorem wf_moveSegment (h : s.memory.wf = true) (k : SlotRef) (g : Segment) (t : Transfer) {parts : List Part}
    (hp : ∀ p ∈ parts, p.offset + p.count ≤ 512) (pages : List BackRef) :
    (s.moveSegment k g t parts pages).memory.wf = true := by
  cases hd : t.direction with
  | read => rw [moveSegment_memory_read hd]; exact wf_segmentRead _ parts h
  | write => rw [moveSegment_memory_write hd]; exact wf_segmentWrite _ parts g.bytes hp h

/-- A segment of at most 64 bytes is granted within the bounds of its pages' frames (R64, R159). -/
theorem wf_grantSegment (h : s.Formed) (i : LinkId) : (s.grantSegment i).memory.wf = true := by
  unfold State.grantSegment
  split
  · exact h.wf
  · next g hg =>
    dsimp only
    set x := s.onLink i fun l => { l with segment := none }
    have formed : x.Formed := h.orderly (calm_dropSegment s i).orderly
    split
    · exact formed.wf
    · next t _ =>
      split_ifs
      · split
        · next parts pages htr =>
          refine wf_moveSegment formed.wf _ g t (fun p hp => ?_) pages
          obtain ⟨_, number, hrun⟩ := translate_moveOk _ htr p hp
          exact pagesTouched_fits (h.small i g hg) hrun
        · next p answer htr =>
          have stopped := effects_stopSegment x (i, g.slot) g p answer fun e he => translate_needsCopy _ (he ▸ htr)
          exact (formed.orderly (effects_orderly stopped)).wf
      · exact (formed.orderly (calm_haltReply ..).orderly).wf

theorem wf_runAccess (h : s.memory.wf = true) (c : Client) (hc : ∀ i, c ≠ .dataPath i) :
    (s.runAccess c).memory.wf = true := by
  rcases runAccess_cases s c hc with ⟨he, _⟩ | ⟨f, _, _, _, he⟩ | ⟨j, _, _, _, he⟩ | ⟨f, _, _, _, he⟩ <;> rw [he]
  · exact h
  · exact wf_clearFrame _ f h
  · exact wf_frameCopy _ j.source j.target h
  · exact wf_frameCheck _ f h

theorem State.Formed.grant (h : s.Formed) (c : Client) : (s.grant c).Formed := by
  refine ⟨?_, small_of_quiet h.small (grant_links s c)⟩
  have serving : (s.serving c).Formed := ⟨h.wf, fun i g hg => h.small i g (by rwa [link_serving] at hg)⟩
  rw [grant_eq]
  by_cases hp : ∀ i, c ≠ .dataPath i
  · exact wf_runAccess serving.wf c hp
  · push Not at hp
    obtain ⟨i, rfl⟩ := hp
    exact wf_grantSegment serving i

theorem State.Formed.finish (h : s.Formed) : s.finish.Formed :=
  finish_keeps State.Formed (fun _ c _ _ hs => hs.grant c) (fun _ _ he hs => hs.orderly (effects_orderly he)) s h

/-! ### Completions and resets -/

theorem State.Formed.completeCopy (h : s.Formed) (errors : List ErrorEvent) : (s.completeCopy errors).Formed := by
  cases hj : s.jobs with
  | nil => unfold State.completeCopy; rw [hj]; exact h
  | cons j rest =>
    have popped : State.Formed { s with jobs := rest } := h.of_quiet rfl fun i => by cases i <;> exact .refl _
    exact popped.orderly (orderly_completeCopy s errors hj)

theorem State.Formed.completeCheck (h : s.Formed) (errors : List ErrorEvent) : (s.completeCheck errors).Formed := by
  cases he : s.scrub.engine with
  | idle => unfold State.completeCheck; rw [he]; exact h
  | busy f work =>
    have idle : State.Formed { s with scrub := { s.scrub with engine := .idle } } :=
      h.of_quiet rfl fun i => by cases i <;> exact .refl _
    exact idle.orderly (orderly_completeCheck s errors he)

theorem State.Formed.completeClear (h : s.Formed) (f : FrameId) : (s.completeClear f).Formed := by
  obtain ⟨hmem, _, hlinks⟩ := completeClear_keeps s f
  exact h.of_quiet hmem hlinks

theorem State.Formed.endAccess (h : s.Formed) : s.endAccess.Formed :=
  h.of_quiet rfl fun i => by cases i <;> exact .refl _

/-- A reset leaves no SEG in processing (R134), and the Clearer begins. -/
theorem formed_reset (h : s.memory.wf = true) (hseg : ∀ i, (s.link i).segment = none) : s.kickClearer.Formed := by
  refine ⟨(kickClearer_memory s).symm ▸ h, fun i g hg => ?_⟩
  rw [link_kickClearer, hseg] at hg
  cases hg

/-! ### Every step -/

theorem event_formed (he : s.Event t) (h : s.Formed) : t.Formed := by
  cases he with
  | still hs => exact h.orderly hs.toCalm.orderly
  | struck f w b => exact ⟨wf_strike _ f w b h.wf, fun i g hg => h.small i g (by rwa [link_memory] at hg)⟩
  | worked he => exact (h.orderly (effects_orderly he)).finish
  | awaited i m hc =>
    have woken := h.orderly hc.orderly
    refine State.Formed.finish ⟨by simpa using woken.wf, fun j g hg => woken.small j g ?_⟩
    rw [link_onLink] at hg
    split at hg <;> exact hg
  | poweredOn pins0 pins1 =>
    exact (formed_reset (s := s.poweredOn pins0 pins1) (wf_empty _) fun i => by cases i <;> rfl).finish
  | reset => exact (formed_reset (s := s.resetHeld) (wf_forget _ _ _ h.wf) fun i => by cases i <;> rfl).finish
  | cleared f _ => exact (h.endAccess.completeClear f).finish
  | copied _ _ errors _ => exact (h.endAccess.completeCopy errors).finish
  | checked _ errors _ => exact (h.endAccess.completeCheck errors).finish

/-- Settles O6: a lawful link has no SEG in processing of more than 64 bytes, so its grant writes within the bounds of
frames; every other access keeps the form, and every other effect leaves the stored words. -/
theorem stepKeepsMemoryForm : Obligations.StepKeepsMemoryForm := by
  intro s t hl hwf h
  have small : ∀ i g, (s.link i).segment = some g → g.count ≤ 64 := fun i g hg => by
    obtain ⟨_, _, _, _, _, _, hle, _⟩ := (hl i).segment g hg
    exact hle
  exact (step_keeps State.Formed (fun s t hst hs => hs.orderly hst.toCalm.orderly) (fun _ _ => event_formed) s t
    ⟨hwf, small⟩ h).wf

end Sys2Proof.Machine
end

section
/-! SUPPORT. No operation of an event reads or changes the queue of commands (log 6): one small lemma for each. -/

namespace Sys2Proof.Machine

variable (s : State) (i : LinkId) (k : SlotRef) (f : FrameId) (p : BackRef) (tag : Byte)

/-- Operations that keep the queue of commands, one after another. -/
theorem foldl_pending {α : Type} (step : State → α → State) (l : List α)
    (h : ∀ x a, (step x a).pending = x.pending) : (l.foldl step s).pending = s.pending :=
  foldl_keeps (fun x : State => x.pending = s.pending) step l (fun x a _ hx => (h x a).trans hx) s rfl

/-! ### Messages -/

@[simp] theorem reply_pending (kind : RequestKind) (payload : List Byte) :
    (s.reply i kind tag payload).pending = s.pending := enqueue_pending ..

@[simp] theorem reject_pending (m : Message) (status : Status) : (s.reject i m status).pending = s.pending :=
  enqueue_pending ..

@[simp] theorem answer_pending (kind : DeferredKind) (payload : List Byte) :
    (s.answer i kind tag payload).pending = s.pending := by simp [State.answer]

@[simp] theorem answerRetire_pending (status : Status) : (s.answerRetire i tag status f).pending = s.pending :=
  answer_pending ..

@[simp] theorem answerRequester_pending (requester : Option (LinkId × Byte)) (status : Status) :
    (s.answerRequester requester status f).pending = s.pending := by unfold State.answerRequester; split <;> simp

@[simp] theorem answerWaitFree_pending (status : Status) : (s.answerWaitFree i tag status).pending = s.pending :=
  answer_pending ..

@[simp] theorem answerCheckState_pending (q : FrameRequest) : (s.answerCheckState q).pending = s.pending :=
  answer_pending ..

/-! ### The supply state, the Clearer and those who wait -/

@[simp] theorem kickClearer_pending : s.kickClearer.pending = s.pending := by unfold State.kickClearer; split <;> simp

@[simp] theorem examineFall_pending : s.examineFall.pending = s.pending := setSupply_pending ..

@[simp] theorem examineRise_pending : s.examineRise.pending = s.pending := setSupply_pending ..

@[simp] theorem examineWaiters_pending : s.examineWaiters.pending = s.pending :=
  foldl_pending { s with waiters := _ } _ _ fun _ _ => answerWaitFree_pending ..

@[simp] theorem answerRetireWait_pending : (s.answerRetireWait f).pending = s.pending :=
  foldl_pending { s with scrub := _ } _ _ fun _ _ => answerRetire_pending ..

@[simp] theorem expireWaiter_pending : (s.expireWaiter i tag).pending = s.pending := by
  unfold State.expireWaiter; split <;> simp

/-! ### Frames and pages -/

@[simp] theorem commonEffect_pending (finder : Finder) (e : ErrorEvent) :
    (s.commonEffect finder e).pending = s.pending := by
  unfold State.commonEffect
  split
  · simp
  · dsimp only
    split <;> simp

@[simp] theorem commonEffects_pending (finder : Finder) (es : List ErrorEvent) :
    (s.commonEffects finder es).pending = s.pending := foldl_pending s _ es fun _ _ => commonEffect_pending ..

@[simp] theorem retireFrame_pending (d : Bool) : (s.retireFrame f d).pending = s.pending := by simp [State.retireFrame]

@[simp] theorem release_pending : (s.release f).pending = s.pending := by unfold State.release; split <;> simp

@[simp] theorem retireFree_pending (d : Bool) : (s.retireFree f d).pending = s.pending := by simp [State.retireFree]

@[simp] theorem resolveFree_pending : (s.resolveFree f).pending = s.pending := by
  unfold State.resolveFree
  dsimp only
  split_ifs <;> simp

@[simp] theorem detach_pending : (s.detach p).1.pending = s.pending := by
  unfold State.detach
  split
  · rfl
  · dsimp only
    split_ifs <;> simp

@[simp] theorem detachAll_pending (ps : List BackRef) : (s.detachAll ps).1.pending = s.pending := by
  rw [detachAll_eq_foldl]
  exact foldl_pending s _ ps fun _ _ => detach_pending ..

@[simp] theorem mapPage_pending : (s.mapPage p f).pending = s.pending := by simp [State.mapPage]

@[simp] theorem clonePage_pending (q : BackRef) : (s.clonePage p q).pending = s.pending := by
  unfold State.clonePage; split <;> simp

@[simp] theorem changeEntry_pending (change : MapEntry → MapEntry) : (s.changeEntry change p).pending = s.pending := by
  unfold State.changeEntry; split <;> simp

@[simp] theorem changeEntries_pending (change : MapEntry → MapEntry) (ps : List BackRef) :
    (ps.foldl (State.changeEntry change) s).pending = s.pending := foldl_pending s _ ps fun _ _ => changeEntry_pending ..

/-! ### Slots and waiter sets -/

@[simp] theorem leaveWaiters_pending : (s.leaveWaiters k).pending = s.pending := rfl

@[simp] theorem joinWaiters_pending (picks : CopyJob → Bool) : (s.joinWaiters k picks).pending = s.pending := rfl

@[simp] theorem slotReady_pending (waiters : List SlotRef) : (s.slotReady waiters).pending = s.pending :=
  foldl_pending s _ _ fun x i => by split <;> simp

@[simp] theorem idleSlot_pending (last : Option LastOutcome) : (s.idleSlot k last).pending = s.pending := by
  simp [State.idleSlot]

@[simp] theorem segReply_pending (status : Status) (data : List Byte) :
    (s.segReply k tag status data).pending = s.pending := by unfold State.segReply; split <;> simp

@[simp] theorem haltReply_pending (cause : HaltCause) : (s.haltReply k tag cause).pending = s.pending := by
  unfold State.haltReply; split <;> simp

@[simp] theorem withdrawSegment_pending (cause : HaltCause) : (s.withdrawSegment k cause).pending = s.pending := by
  unfold State.withdrawSegment
  split
  · rfl
  · split <;> simp

@[simp] theorem haltSlot_pending (cause : HaltCause) : (s.haltSlot k cause).pending = s.pending := by
  unfold State.haltSlot; split <;> simp

@[simp] theorem failWaiters_pending (waiters : List SlotRef) : (s.failWaiters waiters).pending = s.pending :=
  (slotReady_pending ..).trans (foldl_pending s _ _ fun _ _ => haltSlot_pending ..)

@[simp] theorem slotSpaceGone_pending (sp : SpaceId) : (s.slotSpaceGone sp k).pending = s.pending := by
  unfold State.slotSpaceGone
  split
  · rfl
  · split
    · split <;> simp
    · rfl

@[simp] theorem expireSlot_pending : (s.expireSlot k).pending = s.pending := by
  unfold State.expireSlot
  split
  · rfl
  · split <;> simp

/-! ### Copy jobs -/

@[simp] theorem makeJob_pending (kind : JobKind) (waiters : List SlotRef) :
    (s.makeJob kind f waiters).pending = s.pending := by
  unfold State.makeJob
  split
  · rfl
  · dsimp only
    split <;> simp

@[simp] theorem makeMove_pending (requester : Option (LinkId × Byte)) : (s.makeMove f requester).pending = s.pending := by
  simp [State.makeMove]

@[simp] theorem makePrivate_pending (e : MapEntry) : (s.makePrivate p e k).pending = s.pending := by
  simp [State.makePrivate]

@[simp] theorem clearCopyPending_pending : (s.clearCopyPending p).pending = s.pending := by
  unfold State.clearCopyPending; split <;> simp

@[simp] theorem retarget_pending : (s.retarget f p).pending = s.pending := by unfold State.retarget; split <;> simp

@[simp] theorem clearMoving_pending : (s.clearMoving f).pending = s.pending := rfl

@[simp] theorem deferredRelease_pending : (s.deferredRelease f).pending = s.pending := by
  unfold State.deferredRelease; split <;> simp

@[simp] theorem carry_pending (j : CopyJob) : (s.carry j).pending = s.pending := by
  unfold State.carry
  dsimp only
  split
  · simp
  · simpa using foldl_pending s _ _ fun _ _ => retarget_pending ..

@[simp] theorem resolvePrivate_pending (j : CopyJob) (uncorrectable : Bool) :
    (s.resolvePrivate j p uncorrectable).pending = s.pending := by
  unfold State.resolvePrivate
  dsimp only
  split_ifs <;> simp

@[simp] theorem resolveMove_pending (j : CopyJob) (requester : Option (LinkId × Byte)) (uncorrectable : Bool) :
    (s.resolveMove j requester uncorrectable).pending = s.pending := by
  unfold State.resolveMove
  split_ifs <;> simp

@[simp] theorem resolvePoisonedTarget_pending (j : CopyJob) : (s.resolvePoisonedTarget j).pending = s.pending := by
  unfold State.resolvePoisonedTarget
  dsimp only
  split <;> simp

@[simp] theorem resolveJob_pending (j : CopyJob) (uncorrectable : Bool) :
    (s.resolveJob j uncorrectable).pending = s.pending := by
  unfold State.resolveJob
  cases j.kind with
  | privateCopy p =>
    dsimp only
    split_ifs <;> simp
  | move requester =>
    dsimp only
    split_ifs <;> simp

@[simp] theorem startNextJob_pending : s.startNextJob.pending = s.pending := by
  unfold State.startNextJob; split <;> simp

/-! ### The check engine -/

@[simp] theorem startCheck_pending (work : CheckWork) : (s.startCheck f work).pending = s.pending := by
  simp [State.startCheck]

@[simp] theorem advanceCursor_pending : s.advanceCursor.pending = s.pending := by
  unfold State.advanceCursor; split <;> simp

@[simp] theorem walkVisit_pending : s.walkVisit.pending = s.pending := by
  unfold State.walkVisit
  dsimp only
  split <;> simp

@[simp] theorem nextWork_pending (fuel : Nat) : (s.nextWork fuel).pending = s.pending := by
  induction fuel generalizing s with
  | zero => rfl
  | succ fuel ih =>
    unfold State.nextWork
    split
    · rfl
    · split
      · split <;> simp [ih]
      · split <;> simp

@[simp] theorem takeWork_pending : s.takeWork.pending = s.pending := nextWork_pending ..

@[simp] theorem pending_consequence : (s.consequence f).pending = s.pending := by
  unfold State.consequence
  dsimp only
  split
  · simp
  · split_ifs <;> simp
  · simp
  · rfl
  · rfl

@[simp] theorem endWork_pending (work : CheckWork) (errors : List ErrorEvent) :
    (s.endWork f work errors).pending = s.pending := by
  unfold State.endWork
  split
  · rfl
  · exact answer_pending ..
  · rfl

/-! ### Completions -/

@[simp] theorem resolveCleared_pending : (s.resolveCleared f).pending = s.pending := by
  unfold State.resolveCleared State.makeFree
  dsimp only
  split_ifs <;> simp

@[simp] theorem completeClear_pending : (s.completeClear f).pending = s.pending := by
  unfold State.completeClear
  dsimp only
  split <;> simp

@[simp] theorem completeCopy_pending (errors : List ErrorEvent) : (s.completeCopy errors).pending = s.pending := by
  unfold State.completeCopy; split <;> simp

@[simp] theorem completeCheck_pending (errors : List ErrorEvent) : (s.completeCheck errors).pending = s.pending := by
  unfold State.completeCheck; split <;> simp

/-! ### Sessions -/

@[simp] theorem linkReset_pending (rxdLow : Bool) : (s.linkReset i rxdLow).pending = s.pending := by
  simp [State.linkReset]

@[simp] theorem wakeLink_pending : (s.wakeLink i).pending = s.pending := by unfold State.wakeLink; split <;> simp

@[simp] theorem goDormant_pending : (s.goDormant i).pending = s.pending := by unfold State.goDormant; split <;> simp

@[simp] theorem setConfig_pending (c : ConfigItem) (v : Nat) : (s.setConfig i c v).pending = s.pending := by
  cases c with
  | noticeMask => exact onLink_pending ..
  | dormancyInterval => exact onLink_pending ..
  | slotTimeout => exact onLink_pending ..
  | scrubInterval => rfl
  | retireThreshold => rfl
  | lowMark => exact setSupply_pending ..

end Sys2Proof.Machine
end

section
/-! THEOREMS. The queue of commands (log 6): one step runs the command in front, and no command changes the queue. -/

namespace Sys2Proof.Machine

theorem step_cons (c : Instr) (rest : List Instr) (s : State) :
    step { s with pending := c :: rest } = exec c { s with pending := rest } := rfl

/-- Settles O1: the equation of a step on a queue that is not empty. -/
theorem stepRunsFrontCommand : Obligations.StepRunsFrontCommand := step_cons

/-! ### Requests -/

section

variable (s : State) (i : LinkId) (tag : Byte)

theorem serveHello_pending (m : Message) (version : Byte) (rxdLow : Bool) :
    (serveHello i m version rxdLow s).pending = s.pending := by
  unfold serveHello
  split
  · simp
  · dsimp only
    split <;> simp

theorem serveConfig_pending (item : Byte) (v : Nat) : (serveConfig i tag item v s).pending = s.pending := by
  unfold serveConfig
  dsimp only
  split
  · simp
  · split_ifs <;> simp

theorem serveLinkStatus_pending (clear : Byte) : (serveLinkStatus i tag clear s).pending = s.pending := by
  unfold serveLinkStatus
  split
  · simp
  · dsimp only
    split <;> simp

theorem serveSpaceCreate_pending (size : Nat) : (serveSpaceCreate i tag size s).pending = s.pending := by
  unfold serveSpaceCreate
  dsimp only
  split
  · simp
  · split <;> simp

theorem serveSpaceDestroy_pending (id : Byte) : (serveSpaceDestroy i tag id s).pending = s.pending := by
  unfold serveSpaceDestroy
  split
  · simp
  · next sp r _ =>
    have halted : (slotRefs.foldl (fun s k => s.slotSpaceGone sp k) s).pending = s.pending :=
      foldl_pending s _ _ fun _ _ => slotSpaceGone_pending ..
    dsimp only
    split <;> simp [halted]

theorem serveSpaceGrant_pending (id right : Byte) : (serveSpaceGrant i tag id right s).pending = s.pending := by
  unfold serveSpaceGrant
  split
  · simp
  · split
    · simp
    · dsimp only
      split <;> simp

theorem serveSpaceInfo_pending (id : Byte) : (serveSpaceInfo i tag id s).pending = s.pending := by
  unfold serveSpaceInfo; split <;> simp

theorem serveMap_pending (id : Byte) (first count : Nat) : (serveMap i tag id first count s).pending = s.pending := by
  unfold serveMap
  split
  · simp
  · have mapped : ∀ (queue : List FrameId) (pairs : List (BackRef × FrameId)),
        (pairs.foldl (fun (x : State) q => x.mapPage q.1 q.2) { s with freeQueue := queue }).pending = s.pending :=
      fun queue pairs => foldl_pending { s with freeQueue := queue } _ pairs fun _ _ => mapPage_pending ..
    dsimp only
    split_ifs <;> simp [mapped]

theorem serveUnmap_pending (id : Byte) (first count : Nat) :
    (serveUnmap i tag id first count s).pending = s.pending := by unfold serveUnmap; split <;> simp

theorem serveProtect_pending (id : Byte) (first count : Nat) (setting : Byte) :
    (serveProtect i tag id first count setting s).pending = s.pending := by
  unfold serveProtect
  split
  · simp
  · split <;> simp

theorem serveUsage_pending (id : Byte) (first count : Nat) (clear : Byte) :
    (serveUsage i tag id first count clear s).pending = s.pending := by
  unfold serveUsage
  split
  · simp
  · split
    · simp
    · dsimp only
      split <;> simp

theorem serveClone_pending (source : Byte) (sFirst : Nat) (dest : Byte) (dFirst count : Nat) :
    (serveClone i tag source sFirst dest dFirst count s).pending = s.pending := by
  unfold serveClone
  split
  · simp
  · exact (reply_pending ..).trans (foldl_pending s _ _ fun _ _ => clonePage_pending ..)

theorem serveOpen_pending (slot direction id : Byte) (start length : Nat) :
    (serveOpen i tag slot direction id start length s).pending = s.pending := by
  unfold serveOpen
  dsimp only
  split
  · split
    · simp
    · split
      · simp
      · split <;> simp
  · simp

theorem serveClose_pending (slot : Byte) : (serveClose i tag slot s).pending = s.pending := by
  unfold serveClose
  split
  · simp
  · split <;> simp

theorem takeSegment_pending (k : SlotRef) (t : Transfer) (toggle : Bool) (body : List Byte) (count : Nat) :
    (s.takeSegment k tag t toggle body count).pending = s.pending := by
  unfold State.takeSegment
  split
  · simp
  · split
    · split <;> simp
    · split_ifs <;> simp

theorem serveSeg_pending (slot toggle : Byte) (body : List Byte) :
    (serveSeg i tag slot toggle body s).pending = s.pending := by
  unfold serveSeg
  split
  · simp
  · split
    · simp
    · dsimp only
      split
      · simp
      · split
        · exact takeSegment_pending ..
        · split
          · exact takeSegment_pending ..
          · simp
        · simp

theorem serveSlotInfo_pending (slot : Byte) : (serveSlotInfo i tag slot s).pending = s.pending := by
  unfold serveSlotInfo; split <;> exact reply_pending ..

theorem serveFrameInfo_pending (number : Nat) : (serveFrameInfo i tag number s).pending = s.pending := by
  unfold serveFrameInfo; split <;> exact reply_pending ..

theorem serveRetire_pending (number : Nat) : (serveRetire i tag number s).pending = s.pending := by
  unfold serveRetire
  split
  · simp
  · dsimp only
    split_ifs
    · simp
    · simp
    · split
      · simp
      · simp
      · split <;> simp
      · simp
      · simp

theorem serveCheck_pending (number : Nat) : (serveCheck i tag number s).pending = s.pending := by
  unfold serveCheck
  split
  · simp
  · split <;> simp

theorem serveWaitFree_pending (count timeout : Nat) : (serveWaitFree i tag count timeout s).pending = s.pending := by
  unfold serveWaitFree
  split_ifs <;> simp

theorem serve_pending (kind : RequestKind) (m : Message) (rxdLow : Bool) :
    (serve i kind m rxdLow s).pending = s.pending := by
  unfold serve
  split
  · exact serveHello_pending ..
  · exact reply_pending ..
  · exact reply_pending ..
  · exact serveConfig_pending ..
  · exact serveLinkStatus_pending ..
  · exact reply_pending ..
  · exact serveSpaceCreate_pending ..
  · exact serveSpaceDestroy_pending ..
  · exact serveSpaceGrant_pending ..
  · exact serveSpaceInfo_pending ..
  · exact serveMap_pending ..
  · exact serveUnmap_pending ..
  · exact serveProtect_pending ..
  · exact serveClone_pending ..
  · exact serveUsage_pending ..
  · exact serveOpen_pending ..
  · exact serveSeg_pending ..
  · exact serveClose_pending ..
  · exact serveSlotInfo_pending ..
  · exact serveFrameInfo_pending ..
  · exact serveRetire_pending ..
  · exact serveCheck_pending ..
  · exact serveWaitFree_pending ..
  · rfl

theorem acceptDeferred_pending (kind : RequestKind) : (s.acceptDeferred i kind tag).pending = s.pending := by
  unfold State.acceptDeferred; split <;> simp

/-- A message taken, refused or served (R136–R138). -/
@[simp] theorem take_pending (m : Message) (rxdLow : Bool) : (s.take i m rxdLow).pending = s.pending := by
  unfold State.take
  split
  · simp
  · exact (serve_pending ..).trans (acceptDeferred_pending ..)

end

/-! ### Grants and the end of a step -/

section

variable (s : State) (i : LinkId)

@[simp] theorem acceptSegment_pending (k : SlotRef) (g : Segment) (t : Transfer) (pages : List BackRef) (data : List Byte) :
    (s.acceptSegment k g t pages data).pending = s.pending := by simp [State.acceptSegment]

theorem moveSegment_pending (k : SlotRef) (g : Segment) (t : Transfer) (parts : List Part) (pages : List BackRef) :
    (s.moveSegment k g t parts pages).pending = s.pending := by
  cases hd : t.direction with
  | read => rw [moveSegment_read hd]; dsimp only; split <;> simp
  | write => rw [moveSegment_write hd]; dsimp only; split <;> simp

theorem stopSegment_pending (k : SlotRef) (g : Segment) (p : BackRef) (answer : PageAnswer) :
    (s.stopSegment k g p answer).pending = s.pending := by
  unfold State.stopSegment
  split
  · rfl
  · simp
  · simp
  · simp
  · split_ifs <;> simp

theorem grantSegment_pending : (s.grantSegment i).pending = s.pending := by
  unfold State.grantSegment
  split
  · rfl
  · dsimp only
    split
    · simp
    · split_ifs
      · split
        · exact (moveSegment_pending ..).trans (onLink_pending ..)
        · exact (stopSegment_pending ..).trans (onLink_pending ..)
      · simp

theorem grant_pending (c : Client) : (s.grant c).pending = s.pending := by
  rw [grant_eq]
  by_cases hp : ∀ i, c ≠ .dataPath i
  · rcases runAccess_cases (s.serving c) c hp with ⟨he, _⟩ | ⟨_, _, _, _, he⟩ | ⟨_, _, _, _, he⟩ | ⟨_, _, _, _, he⟩
      <;> rw [he] <;> rfl
  · push Not at hp
    obtain ⟨i, rfl⟩ := hp
    exact grantSegment_pending ..

@[simp] theorem endEvent_pending : s.endEvent.pending = s.pending :=
  (settle_pending _).trans (arbitrate_keeps (fun x => x.pending = s.pending)
    (fun x c _ _ hx => (grant_pending x c).trans hx) 6 s rfl)

theorem takeFirst_pending (m : Message) (rest : List Message) : (s.takeFirst i m rest).pending = s.pending := by
  simp [State.takeFirst]

theorem drain_pending (n : Nat) : (s.drain n).pending = s.pending := by
  induction n generalizing s with
  | zero => rfl
  | succ n ih =>
    rcases drain_cases s n with ⟨_, he⟩ | ⟨i, m, rest, _, he⟩ <;> rw [he]
    exact (ih _).trans (takeFirst_pending ..)

@[simp] theorem finish_pending : s.finish.pending = s.pending := (drain_pending ..).trans (endEvent_pending s)

/-! ### Messages and bytes received -/

theorem handOver_pending (m : Message) : (s.handOver i m).pending = s.pending := by
  unfold State.handOver
  dsimp only
  split_ifs <;> simp

theorem receive_pending (m : Message) : (s.receive i m).pending = s.pending := by
  unfold State.receive
  split
  · exact handOver_pending ..
  · rfl

theorem discardFrame_pending (rx : Receiver) : (s.discardFrame i rx).pending = s.pending := onLink_pending ..

end

section

variable {s t : State} {i : LinkId}

theorem byteReceived_pending {b : Byte} (h : execByteReceived i b s = .next t) : t.pending = s.pending := by
  unfold execByteReceived at h
  split_ifs at h
  · split at h <;> cases h
    · exact onLink_pending ..
    · exact discardFrame_pending ..
    · exact discardFrame_pending ..
    · exact handOver_pending ..
  · cases h; rfl

theorem lenDiscard_pending {len : Byte} (h : execLinkFrameLenDiscard i len s = .next t) : t.pending = s.pending := by
  unfold execLinkFrameLenDiscard at h
  split_ifs at h
  · split at h <;> cases h
    · exact discardFrame_pending ..
    · rfl
  · cases h; rfl

theorem checkDiscard_pending {b : Byte} (h : execLinkFrameCheckDiscard i b s = .next t) : t.pending = s.pending := by
  unfold execLinkFrameCheckDiscard at h
  split_ifs at h
  · split at h <;> cases h
    · exact discardFrame_pending ..
    · rfl
  · cases h; rfl

theorem rxdReturnsHigh_pending (h : execRxdReturnsHigh i s = .next t) : t.pending = s.pending := by
  unfold execRxdReturnsHigh at h
  split_ifs at h <;> cases h
  · rfl
  · exact discardFrame_pending ..
  · exact onLink_pending ..

theorem lineBreak_pending (h : execLineBreak i s = .next t) : t.pending = s.pending := by
  unfold execLineBreak at h
  split_ifs at h <;> cases h
  · simp
  · rfl

/-! ### The transmitter, the walk timer and the completions -/

theorem messageSent_pending {low : Bool} (h : execMessageSent i low s = .next t) : t.pending = s.pending := by
  unfold execMessageSent at h
  split at h <;> cases h
  · rfl
  · dsimp only
    split <;> simp

theorem walkTimerExpiry_pending (h : execWalkTimerExpiry s = .next t) : t.pending = s.pending := by
  unfold execWalkTimerExpiry at h
  split_ifs at h <;> cases h
  · simp
  · rfl

@[simp] theorem endAccess_pending (s : State) : s.endAccess.pending = s.pending := rfl

theorem clearCompletion_pending (h : execClearCompletion s = .next t) : t.pending = s.pending := by
  unfold execClearCompletion at h
  split at h <;> cases h
  · simp
  · rfl

theorem copyCompletion_pending (h : execCopyCompletion s = .next t) : t.pending = s.pending := by
  unfold execCopyCompletion at h
  split at h <;> cases h
  · simp
  · rfl

theorem checkCompletion_pending (h : execCheckCompletion s = .next t) : t.pending = s.pending := by
  unfold execCheckCompletion at h
  split at h <;> cases h
  · simp
  · rfl

end

/-! ### Every command -/

/-- A reset keeps the queue, as does the Clearer's beginning after it (log 20). -/
theorem reset_pending (s : State) : s.kickClearer.finish.pending = s.pending := by simp

/-- Settles O2: a message row by its reception, each other command by its row, no operation of an event changing the
queue. -/
theorem execKeepsQueue : Obligations.ExecKeepsQueue := by
  intro c s t h
  cases hm : messageOf c with
  | some p => rw [exec_message hm] at h; cases h; exact receive_pending ..
  | none =>
    cases c with
    | powerOn p0 p1 => rw [← Host.Outcome.next.inj h]; exact reset_pending (s.poweredOn p0 p1)
    | resetN => rw [← Host.Outcome.next.inj h]; exact reset_pending s.resetHeld
    | resetNRelease p0 p1 =>
      change Host.Outcome.next _ = _ at h
      split_ifs at h <;> cases h <;> rfl
    | rxdReturnsHigh i => exact rxdReturnsHigh_pending h
    | lineBreak i => exact lineBreak_pending h
    | interByteGapExpiry i =>
      change Host.Outcome.next _ = _ at h
      split_ifs at h <;> cases h
      · exact discardFrame_pending ..
      · rfl
    | linkFrameLenDiscard i len => exact lenDiscard_pending h
    | linkFrameCheckDiscard i b => exact checkDiscard_pending h
    | generalPlacesFullDiscard i =>
      change Host.Outcome.next _ = _ at h
      split_ifs at h <;> cases h
      · exact discardFrame_pending ..
      · rfl
    | messageSent i low => exact messageSent_pending h
    | dormancyTimerExpiry i => cases h; exact (finish_pending _).trans (goDormant_pending s i)
    | slotIdleTimerExpiry i k => cases h; exact (finish_pending _).trans (expireSlot_pending s (i, k))
    | waitFreeTimerExpiry i tag => cases h; exact (finish_pending _).trans (expireWaiter_pending s i tag)
    | walkTimerExpiry => exact walkTimerExpiry_pending h
    | clearCompletion => exact clearCompletion_pending h
    | copyCompletion => exact copyCompletion_pending h
    | checkCompletion => exact checkCompletion_pending h
    | storageFault f w b => cases h; rfl
    | byteReceived i b => exact byteReceived_pending h
    | stopBitLow i =>
      change Host.Outcome.next _ = _ at h
      split_ifs at h <;> cases h
      · exact onLink_pending ..
      · rfl
    | _ => cases hm

end Sys2Proof.Machine
end
